-- ==== Sys2Proof/Word.lean ====
section
/-! DEFINITION. The Words of the core (spec/00_scope.md R9 to R12). A Word is a mathematical integer, not a bit vector
(R11), so its Lean type is Int. That every Word the machine holds lies in `[wordMin, wordMax]` is the invariant of
Sys2Proof/Safety.lean, not a part of the type (log 1). -/

namespace Sys2Proof

/-- `WORD_MIN` (R9). -/
abbrev wordMin : Int := -2147483648

/-- `WORD_MAX` (R9). -/
abbrev wordMax : Int := 2147483647

/-- The set of Words (R10, R11). -/
abbrev IsWord (x : Int) : Prop := wordMin ≤ x ∧ x ≤ wordMax

/-- `OptWord`: a Word or `absent`, written `none` (R12). -/
abbrev OptWord := Option Int

/-- A present value is a Word; `absent` has no value to check. -/
abbrev OptIsWord (x : OptWord) : Prop := ∀ w ∈ x, IsWord w

end Sys2Proof
end

