-- ==== Sys2Proof/Config.lean ====
section
/-! DEFINITION. The implementation parameters of spec/00_scope.md R9: the fixed ones as constants, the OPEN ones as the
record that a run is given (R455). -/

namespace Sys2Proof

/-- `STACK_DEPTH` (R9, R44). -/
abbrev stackDepth : Nat := 64

/-- `N_OPCODES` (R9, R102). -/
abbrev nOpcodes : Nat := 22

/-- `N_ALU_OPS` (R9, R141). -/
abbrev nAluOps : Nat := 9

/-- `N_UROWS` (R9, R241). -/
abbrev nURows : Nat := 71

/-- The parameters R9 leaves OPEN, "a model argument" (log 4). -/
structure Params where
  /-- `MEM_SIZE`: addresses are `0` to `memSize - 1` (R51, D14). -/
  memSize     : Nat
  /-- `INSTR_LIMIT`, the instruction ceiling (R243, D13). -/
  instrLimit  : Nat
  /-- `CHAR_CODE_MAX`, the largest character code (R53, D24). -/
  charCodeMax : Nat
  deriving DecidableEq, Repr

/-- The parameters the state right after reset carries. DESIGN CHOICE (log 4): R9 gives MEM_SIZE's largest value, no
value of INSTR_LIMIT, and 1114111 for a character channel. -/
def Params.atReset : Params :=
  { memSize := 2147483647, instrLimit := 4294967296, charCodeMax := 1114111 }

/-- The parameter ranges under which every value of a run is a Word and every code in either buffer is in
`[0, CHAR_CODE_MAX]`. R9 states the bounds of MEM_SIZE (with N at least 1); the bounds of CHAR_CODE_MAX are DEDUCED from
R10 and R370 (log 13). -/
abbrev Params.wf (p : Params) : Prop :=
  2 ≤ p.memSize ∧ (p.memSize : Int) ≤ wordMax ∧ 57 ≤ p.charCodeMax ∧ (p.charCodeMax : Int) ≤ wordMax

end Sys2Proof
end

