-- ==== Sys2Proof/Syntax.lean ====
section
/-! DEFINITION. The instruction set as syntax (spec/30_encoding.md R100 to R105): opcodes, source tags, instructions, and
the record form in which the compiler hands an instruction to the loader. -/

namespace Sys2Proof

/-- The closed set of 22 opcodes, in the order of R102. -/
inductive Opcode where
  /-- SUM (R271). -/
  | sum
  /-- SUB (R272). -/
  | sub
  /-- MUL (R273). -/
  | mul
  /-- DIV (R274). -/
  | div
  /-- MOD (R275). -/
  | mod
  /-- EQ (R291). -/
  | eq
  /-- NOT_EQ (R292). -/
  | notEq
  /-- MORE (R293). -/
  | more
  /-- LESS (R294). -/
  | less
  /-- DUP (R310). -/
  | dup
  /-- DROP (R311). -/
  | drop
  /-- SWAP (R312). -/
  | swap
  /-- PUSH (R313). -/
  | push
  /-- ADDR_ON_TOP (R330). -/
  | addrOnTop
  /-- SAVE_VAR (R331). -/
  | saveVar
  /-- VAR_ON_TOP (R332). -/
  | varOnTop
  /-- JZS (R351). -/
  | jzs
  /-- JMP (R352). -/
  | jmp
  /-- HALT (R353). -/
  | halt
  /-- PRINT (R371). -/
  | print
  /-- READ (R372). -/
  | read
  /-- EMIT (R373). -/
  | emit
  deriving DecidableEq, Repr

/-- The optional `(line, column, token)` triple carried from the compiler and read by no signal (R104). The types of its
three parts are not in the spec (log 15). -/
structure SourceTag where
  line   : Nat
  column : Nat
  token  : String
  deriving DecidableEq, Repr

/-- An instruction (R100): one constructor per row of the opcode table. Every record has an optional `arg` and an
optional `tag`; PUSH, ADDR_ON_TOP, JZS and JMP read the arg, the other 18 carry it and ignore it (R105). -/
inductive Instr where
  /-- SUM (R271). -/
  | sum (arg : OptWord) (tag : Option SourceTag)
  /-- SUB (R272). -/
  | sub (arg : OptWord) (tag : Option SourceTag)
  /-- MUL (R273). -/
  | mul (arg : OptWord) (tag : Option SourceTag)
  /-- DIV (R274). -/
  | div (arg : OptWord) (tag : Option SourceTag)
  /-- MOD (R275). -/
  | mod (arg : OptWord) (tag : Option SourceTag)
  /-- EQ (R291). -/
  | eq (arg : OptWord) (tag : Option SourceTag)
  /-- NOT_EQ (R292). -/
  | notEq (arg : OptWord) (tag : Option SourceTag)
  /-- MORE (R293). -/
  | more (arg : OptWord) (tag : Option SourceTag)
  /-- LESS (R294). -/
  | less (arg : OptWord) (tag : Option SourceTag)
  /-- DUP (R310). -/
  | dup (arg : OptWord) (tag : Option SourceTag)
  /-- DROP (R311). -/
  | drop (arg : OptWord) (tag : Option SourceTag)
  /-- SWAP (R312). -/
  | swap (arg : OptWord) (tag : Option SourceTag)
  /-- PUSH (R313). -/
  | push (arg : OptWord) (tag : Option SourceTag)
  /-- ADDR_ON_TOP (R330). -/
  | addrOnTop (arg : OptWord) (tag : Option SourceTag)
  /-- SAVE_VAR (R331). -/
  | saveVar (arg : OptWord) (tag : Option SourceTag)
  /-- VAR_ON_TOP (R332). -/
  | varOnTop (arg : OptWord) (tag : Option SourceTag)
  /-- JZS (R351). -/
  | jzs (arg : OptWord) (tag : Option SourceTag)
  /-- JMP (R352). -/
  | jmp (arg : OptWord) (tag : Option SourceTag)
  /-- HALT (R353). -/
  | halt (arg : OptWord) (tag : Option SourceTag)
  /-- PRINT (R371). -/
  | print (arg : OptWord) (tag : Option SourceTag)
  /-- READ (R372). -/
  | read (arg : OptWord) (tag : Option SourceTag)
  /-- EMIT (R373). -/
  | emit (arg : OptWord) (tag : Option SourceTag)
  deriving DecidableEq, Repr

/-- A record of the list the external compiler supplies (R100): the opcode by its ordinal, any number being possible
before the loader's check (R108 check 2); the optional argument, any integer being possible before check 5; the tag. -/
structure Record where
  opcode    : Nat
  arg       : Option Int
  sourceTag : Option SourceTag
  deriving DecidableEq, Repr

end Sys2Proof
end

