-- ==== Sys2Proof/WellFormed.lean ====
section
/-! DEFINITION. The shape checks an instruction must pass (spec/30_encoding.md R108 checks 4 and 5). -/

namespace Sys2Proof

/-- Check 5: "every present `arg` is a Word". -/
def argIsWord (arg : OptWord) : Bool :=
  match arg with
  | some w => decide (IsWord w)
  | none   => true

/-- Checks 4 and 5 together, for the four opcodes that require an argument. -/
def argIsPresentWord (arg : OptWord) : Bool :=
  match arg with
  | some w => decide (IsWord w)
  | none   => false

/-- An instruction the loader accepts (R108 checks 4 and 5). -/
def Instr.wellFormed : Instr → Bool
  | .sum arg _ => argIsWord arg
  | .sub arg _ => argIsWord arg
  | .mul arg _ => argIsWord arg
  | .div arg _ => argIsWord arg
  | .mod arg _ => argIsWord arg
  | .eq arg _ => argIsWord arg
  | .notEq arg _ => argIsWord arg
  | .more arg _ => argIsWord arg
  | .less arg _ => argIsWord arg
  | .dup arg _ => argIsWord arg
  | .drop arg _ => argIsWord arg
  | .swap arg _ => argIsWord arg
  | .push arg _ => argIsPresentWord arg
  | .addrOnTop arg _ => argIsPresentWord arg
  | .saveVar arg _ => argIsWord arg
  | .varOnTop arg _ => argIsWord arg
  | .jzs arg _ => argIsPresentWord arg
  | .jmp arg _ => argIsPresentWord arg
  | .halt arg _ => argIsWord arg
  | .print arg _ => argIsWord arg
  | .read arg _ => argIsWord arg
  | .emit arg _ => argIsWord arg

end Sys2Proof
end

