-- ==== Sys2Proof/Decode.lean ====
section
/-! DEFINITION. Decoding and encoding instruction records (spec/30_encoding.md R100 to R108). The hardware has no bit
layout (R100): a record's opcode is named by its ordinal (R102), its arg is taken as it is (R103), its tag is carried
(R104). -/

namespace Sys2Proof

/-- Why a record is no instruction. -/
inductive DecodeError where
  /-- The record's opcode is outside the 22 of R102; such a record cannot be loaded (R107, R108 check 2). -/
  | opcodeOutsideTable (ordinal : Nat)
  deriving DecidableEq, Repr

/-- The ordinal of an opcode (R102). -/
def Opcode.ordinal : Opcode → Nat
  | .sum => 0
  | .sub => 1
  | .mul => 2
  | .div => 3
  | .mod => 4
  | .eq => 5
  | .notEq => 6
  | .more => 7
  | .less => 8
  | .dup => 9
  | .drop => 10
  | .swap => 11
  | .push => 12
  | .addrOnTop => 13
  | .saveVar => 14
  | .varOnTop => 15
  | .jzs => 16
  | .jmp => 17
  | .halt => 18
  | .print => 19
  | .read => 20
  | .emit => 21

/-- The opcode of an ordinal (R102); there is none outside 0 to 21. -/
def Opcode.ofOrdinal : Nat → Option Opcode
  | 0 => some .sum
  | 1 => some .sub
  | 2 => some .mul
  | 3 => some .div
  | 4 => some .mod
  | 5 => some .eq
  | 6 => some .notEq
  | 7 => some .more
  | 8 => some .less
  | 9 => some .dup
  | 10 => some .drop
  | 11 => some .swap
  | 12 => some .push
  | 13 => some .addrOnTop
  | 14 => some .saveVar
  | 15 => some .varOnTop
  | 16 => some .jzs
  | 17 => some .jmp
  | 18 => some .halt
  | 19 => some .print
  | 20 => some .read
  | 21 => some .emit
  | _ => none

/-- The opcodes whose record must carry an arg (R105, R108 check 4). -/
def Opcode.requiresArg : Opcode → Bool
  | .sum => false
  | .sub => false
  | .mul => false
  | .div => false
  | .mod => false
  | .eq => false
  | .notEq => false
  | .more => false
  | .less => false
  | .dup => false
  | .drop => false
  | .swap => false
  | .push => true
  | .addrOnTop => true
  | .saveVar => false
  | .varOnTop => false
  | .jzs => true
  | .jmp => true
  | .halt => false
  | .print => false
  | .read => false
  | .emit => false

/-- The instruction with the given opcode and the other two fields of its record, taken as they are (R103, R104). -/
def Instr.ofParts (o : Opcode) (arg : OptWord) (tag : Option SourceTag) : Instr :=
  match o with
  | .sum => .sum arg tag
  | .sub => .sub arg tag
  | .mul => .mul arg tag
  | .div => .div arg tag
  | .mod => .mod arg tag
  | .eq => .eq arg tag
  | .notEq => .notEq arg tag
  | .more => .more arg tag
  | .less => .less arg tag
  | .dup => .dup arg tag
  | .drop => .drop arg tag
  | .swap => .swap arg tag
  | .push => .push arg tag
  | .addrOnTop => .addrOnTop arg tag
  | .saveVar => .saveVar arg tag
  | .varOnTop => .varOnTop arg tag
  | .jzs => .jzs arg tag
  | .jmp => .jmp arg tag
  | .halt => .halt arg tag
  | .print => .print arg tag
  | .read => .read arg tag
  | .emit => .emit arg tag

/-- The opcode field of an instruction. -/
def Instr.opcode : Instr → Opcode
  | .sum _ _ => .sum
  | .sub _ _ => .sub
  | .mul _ _ => .mul
  | .div _ _ => .div
  | .mod _ _ => .mod
  | .eq _ _ => .eq
  | .notEq _ _ => .notEq
  | .more _ _ => .more
  | .less _ _ => .less
  | .dup _ _ => .dup
  | .drop _ _ => .drop
  | .swap _ _ => .swap
  | .push _ _ => .push
  | .addrOnTop _ _ => .addrOnTop
  | .saveVar _ _ => .saveVar
  | .varOnTop _ _ => .varOnTop
  | .jzs _ _ => .jzs
  | .jmp _ _ => .jmp
  | .halt _ _ => .halt
  | .print _ _ => .print
  | .read _ _ => .read
  | .emit _ _ => .emit

/-- The `arg` field of an instruction (R103). -/
def Instr.arg : Instr → OptWord
  | .sum arg _ => arg
  | .sub arg _ => arg
  | .mul arg _ => arg
  | .div arg _ => arg
  | .mod arg _ => arg
  | .eq arg _ => arg
  | .notEq arg _ => arg
  | .more arg _ => arg
  | .less arg _ => arg
  | .dup arg _ => arg
  | .drop arg _ => arg
  | .swap arg _ => arg
  | .push arg _ => arg
  | .addrOnTop arg _ => arg
  | .saveVar arg _ => arg
  | .varOnTop arg _ => arg
  | .jzs arg _ => arg
  | .jmp arg _ => arg
  | .halt arg _ => arg
  | .print arg _ => arg
  | .read arg _ => arg
  | .emit arg _ => arg

/-- The `source_tag` field of an instruction (R104). -/
def Instr.sourceTag : Instr → Option SourceTag
  | .sum _ tag => tag
  | .sub _ tag => tag
  | .mul _ tag => tag
  | .div _ tag => tag
  | .mod _ tag => tag
  | .eq _ tag => tag
  | .notEq _ tag => tag
  | .more _ tag => tag
  | .less _ tag => tag
  | .dup _ tag => tag
  | .drop _ tag => tag
  | .swap _ tag => tag
  | .push _ tag => tag
  | .addrOnTop _ tag => tag
  | .saveVar _ tag => tag
  | .varOnTop _ tag => tag
  | .jzs _ tag => tag
  | .jmp _ tag => tag
  | .halt _ tag => tag
  | .print _ tag => tag
  | .read _ tag => tag
  | .emit _ tag => tag

/-- The instruction a record stands for, or the reason it stands for none (R102, R107). Total on any record. -/
def decode (r : Record) : Except DecodeError Instr :=
  match Opcode.ofOrdinal r.opcode with
  | some o => .ok (Instr.ofParts o r.arg r.sourceTag)
  | none   => .error (.opcodeOutsideTable r.opcode)

/-- The record of an instruction: its opcode's ordinal, its arg, its tag (R100, R102). -/
def encode (i : Instr) : Record :=
  { opcode := i.opcode.ordinal, arg := i.arg, sourceTag := i.sourceTag }

/-- The record that a word of spec/opcode_table.json stands for. The table's mask 31 compares the ordinal with the low
five bits and "describes no bit field" (R102), so the bits above them carry nothing; the fields that have no bits are
"operand words of zeros": the arg is the Word 0 where the opcode requires one, absent elsewhere, and there is no tag
(DESIGN CHOICE, log 8). -/
def recordOfTableWord (nbits w : Nat) : Record :=
  let ordinal := (w % 2 ^ nbits) % 32
  { opcode    := ordinal
    arg       := match Opcode.ofOrdinal ordinal with
                 | some o => if o.requiresArg then some 0 else none
                 | none   => none
    sourceTag := none }

/-- The instruction the decoder reads from a word of spec/opcode_table.json (log 8). -/
def decodeTableWord (nbits w : Nat) : Option Instr :=
  match decode (recordOfTableWord nbits w) with
  | .ok i    => some i
  | .error _ => none

end Sys2Proof
end

