-- ==== Sys2Proof/Machine/State.lean ====
section
/-! DEFINITION. The state of the core (spec/10_state.md R30 to R60), the reasons a step can stop, and the state right
after reset. -/

namespace Sys2Proof.Machine

/-- A memory cell holds a Word or an Instruction record; a decoder tells them apart by this tag (R50, R101). -/
inductive Cell where
  | word  (w : Int)
  | instr (i : Instr)
  deriving DecidableEq, Repr

/-- What a cell holds that the program does not fill and nothing has written: word 0 (70_reset_and_hazards.md R452;
log 6). -/
abbrev Cell.blank : Cell := .word 0

/-- The memory's contents: the cells that differ from `Cell.blank`, by strictly rising address (log 7). -/
abbrev Memory := List (Nat × Cell)

/-- The value of the instruction register (R34): `empty`, or a record whose opcode is `none` when it was synthesized from
a bare Word (30_encoding.md R106). -/
inductive IRVal where
  | empty
  | record (opcode : Option Opcode) (arg : OptWord) (sourceTag : Option SourceTag)
  deriving DecidableEq, Repr

/-- The nine fault kinds (60_exceptions.md R401). -/
inductive FaultKind where
  /-- A signal of no handler category (R402). -/
  | invalidSignal
  /-- A push of a present value at maximum depth (R403). -/
  | stackOverflow
  /-- An address outside `[0, MEM_SIZE)` (R406). -/
  | memoryOutOfRange
  /-- DIV or MOD with divisor 0 (R405). -/
  | divisionByZero
  /-- A signal needed a Word and found `absent` (R404). -/
  | operandAbsent
  /-- A Word was needed from a cell that holds an Instruction (R407). -/
  | notAWord
  /-- Dispatch of an IR that has no opcode (R408). -/
  | noOpcode
  /-- `arg + MEM[0]` is not a Word (R409). -/
  | valueOutOfRange
  /-- EMIT of a code outside `[0, CHAR_CODE_MAX]` (R410). -/
  | badCharCode
  deriving DecidableEq, Repr

/-- The run status (R57). Only `running` steps; the other three are final. -/
inductive Status where
  | running
  | halted
  | limit
  | fault (k : FaultKind)
  deriving DecidableEq, Repr

/-- Everything 10_state.md R30 gives the core, under the spec's names, and `params`, the model's own field (log 4). -/
structure State where
  /-- PC (R32). -/
  pc         : Int
  /-- AR (R33). -/
  ar         : Int
  /-- IR (R34). -/
  ir         : IRVal
  /-- BR (R37). -/
  br         : OptWord
  /-- TOS, the staging register; not the stack's top element (R38). -/
  tos        : OptWord
  /-- ALU_A (R39). -/
  aluA       : OptWord
  /-- ALU_B (R39). -/
  aluB       : OptWord
  /-- ALU_RES (R40). -/
  aluRes     : Int
  /-- N (R41). -/
  flagN      : Bool
  /-- Z (R41). -/
  flagZ      : Bool
  /-- V (R41). -/
  flagV      : Bool
  /-- STACK, bottom first: the last element is the top (R44). -/
  stack      : List Int
  /-- MEM (R50). -/
  mem        : Memory
  /-- LATCH (R52). -/
  latch      : Cell
  /-- IN, front first (R53). -/
  input      : List Nat
  /-- OUT, oldest first (R54). -/
  output     : List Nat
  /-- MPC (R55). -/
  mpc        : Nat
  /-- INSTR_COUNT (R56). -/
  instrCount : Nat
  /-- TICK_COUNT (R56). -/
  tickCount  : Nat
  /-- STATUS (R57). -/
  status     : Status
  /-- MEM_SIZE, INSTR_LIMIT and CHAR_CODE_MAX: fixed data of the run, changed by no step (R9, R30; log 4). -/
  params     : Params
  deriving DecidableEq, Repr

/-- Why the machine takes no step. The core's own faults are no reasons of this type: they set STATUS in a next state
(60_exceptions.md R400; log 3). -/
inductive Fault where
  /-- Raised by `step`, `rowStep` and `exec` in a state whose run has halted: "Only a running state steps" (R57). Safe. -/
  | runHalted
  /-- Raised by `step`, `rowStep` and `exec` in a state whose run ended at the instruction ceiling (R57, R412). Safe. -/
  | runAtLimit
  /-- Raised by `step`, `rowStep` and `exec` in a state whose run ended with the fault `k` (R57, R400). Safe. -/
  | runFaulted (k : FaultKind)
  /-- Raised by `step` and `rowStep` when MPC is no row of the table; R55 says it always is one, so no run gets here
  (log 10). Safe. -/
  | microAddressOutsideTable
  deriving DecidableEq, Repr

/-- Why an instruction has no meaning here. -/
inductive Refusal where
  /-- Raised by `exec` for an instruction that is not modelled yet; no arm of this model does. Safe. -/
  | notModelled (mnemonic : String)
  deriving DecidableEq, Repr

/-- The state right after reset (10_state.md R60), before a program is loaded: memory lists nothing, the input queue is
empty, and the parameters are those of `Params.atReset` (logs 4 and 5). -/
def State.reset : State :=
  { pc         := 1
    ar         := 0
    ir         := .empty
    br         := some 0
    tos        := some 0
    aluA       := some 0
    aluB       := some 0
    aluRes     := 0
    flagN      := false
    flagZ      := false
    flagV      := false
    stack      := []
    mem        := []
    latch      := .word 0
    input      := []
    output     := []
    mpc        := 0
    instrCount := 0
    tickCount  := 0
    status     := .running
    params     := Params.atReset }

end Sys2Proof.Machine
end

