-- ==== Sys2Proof/Machine/Ops.lean ====
section
/-! DEFINITION. The named operations over memory, the data stack and the status: the primitives of spec/00_scope.md R13,
raising a fault (60_exceptions.md R400), and the decoding of a cell (30_encoding.md R106). -/

namespace Sys2Proof.Machine

/-- The cell at an address; an unlisted one is blank. -/
def Memory.read (m : Memory) (a : Nat) : Cell :=
  match m with
  | []             => Cell.blank
  | (k, c) :: rest => if a = k then c else Memory.read rest a

/-- Store a cell at an address, keeping the canonical form: addresses rise and no blank cell is listed (log 7). -/
def Memory.write (m : Memory) (a : Nat) (c : Cell) : Memory :=
  match m with
  | []             => if c = Cell.blank then [] else [(a, c)]
  | (k, d) :: rest =>
    if a < k then (if c = Cell.blank then (k, d) :: rest else (a, c) :: (k, d) :: rest)
    else if a = k then (if c = Cell.blank then rest else (a, c) :: rest)
    else (k, d) :: Memory.write rest a c

/-- The canonical form of a memory: addresses strictly rising, no entry blank (log 7). -/
abbrev Memory.wf (m : Memory) : Prop :=
  m.Pairwise (fun p q => p.1 < q.1) ∧ ∀ p ∈ m, p.2 ≠ Cell.blank

/-- The range check of R72. -/
abbrev State.addressable (s : State) (a : Int) : Prop := 0 ≤ a ∧ a < s.params.memSize

/-- `MemRead(a)` (R72). -/
def State.memRead (s : State) (a : Int) : Except FaultKind Cell :=
  if s.addressable a then .ok (s.mem.read a.toNat) else .error .memoryOutOfRange

/-- `MemWrite(a, c)` (R72). -/
def State.memWrite (s : State) (a : Int) (c : Cell) : Except FaultKind State :=
  if s.addressable a then .ok { s with mem := s.mem.write a.toNat c } else .error .memoryOutOfRange

/-- `push(v)` (R45): an absent value is a no-op, checked first; a present one faults at maximum depth
(log 20). -/
def State.push (s : State) (v : OptWord) : Except FaultKind State :=
  match v with
  | none   => .ok s
  | some w => if stackDepth ≤ s.stack.length then .error .stackOverflow else .ok { s with stack := s.stack ++ [w] }

/-- The value `pop()` yields: the top, or absent on an empty stack (R46). -/
def State.popped (s : State) : OptWord := s.stack.getLast?

/-- The state after `pop()`: an empty stack stays empty (R46). -/
def State.pop (s : State) : State := { s with stack := s.stack.dropLast }

/-- `out_append` of a list of character codes (R13, R54). -/
def State.emitCodes (s : State) (codes : List Nat) : State := { s with output := s.output ++ codes }

/-- `raise Fault(K)` (R400): STATUS becomes `fault K`, and that is all: nothing is saved and control goes nowhere (R414).
This is the core's whole exception entry; there is no return from it (R415). -/
def State.raise (s : State) (k : FaultKind) : State := { s with status := .fault k }

/-- Whether the run has ended, and how (R57, R458). -/
def State.ended (s : State) : Option Fault :=
  match s.status with
  | .running => none
  | .halted  => some .runHalted
  | .limit   => some .runAtLimit
  | .fault k => some (.runFaulted k)

/-- `decode` of R106: a record is adopted as it is; a bare Word is synthesized into a record with no opcode. -/
def decodeCell (c : Cell) : IRVal :=
  match c with
  | .instr i => .record (some i.opcode) i.arg i.sourceTag
  | .word w  => .record none (some w) none

/-- The opcode IR carries, if any (R34). -/
def IRVal.opcode? (v : IRVal) : Option Opcode :=
  match v with
  | .empty        => none
  | .record o _ _ => o

/-- The arg IR carries; `empty` carries none (R34; log 11). -/
def IRVal.arg (v : IRVal) : OptWord :=
  match v with
  | .empty        => none
  | .record _ x _ => x

/-- The fault codes of R401. -/
def FaultKind.code : FaultKind → Nat
  | .invalidSignal    => 1
  | .stackOverflow    => 2
  | .memoryOutOfRange => 3
  | .divisionByZero   => 4
  | .operandAbsent    => 5
  | .notAWord         => 6
  | .noOpcode         => 7
  | .valueOutOfRange  => 8
  | .badCharCode      => 9

/-- What the host receives at the end of a run (42_control_unit.md R244; 70_reset_and_hazards.md R456). -/
structure RunResult where
  output     : List Nat
  instrCount : Nat
  tickCount  : Nat
  status     : Status
  deriving DecidableEq, Repr

/-- The result a state carries (R244, R456). -/
def State.result (s : State) : RunResult :=
  { output := s.output, instrCount := s.instrCount, tickCount := s.tickCount, status := s.status }

end Sys2Proof.Machine
end

