-- ==== Sys2Proof/Machine/Operands.lean ====
section
/-! DEFINITION. What an operand yields or how it faults (spec/00_scope.md R12; 30_encoding.md R113; 41_datapath_signals.md
R179, R181, R190), and the decimal form PRINT writes (48_io.md R374). -/

namespace Sys2Proof.Machine

/-- `need(R)` (R12): the present Word, or OperandAbsent (60_exceptions.md R404). -/
def need (v : OptWord) : Except FaultKind Int :=
  match v with
  | some w => .ok w
  | none   => .error .operandAbsent

/-- The Word of a cell, or NotAWord (R179, R407). -/
def cellWord (c : Cell) : Except FaultKind Int :=
  match c with
  | .word w  => .ok w
  | .instr _ => .error .notAWord

/-- A Word read directly from memory (R75, R179): the range check comes before the cell-kind check (R413). -/
def State.memWord (s : State) (a : Int) : Except FaultKind Int := do
  let c ← s.memRead a
  cellWord c

/-- An exact sum that must be a Word, or ValueOutOfRange (R181, R409). -/
def checkedWord (r : Int) : Except FaultKind Int :=
  if IsWord r then .ok r else .error .valueOutOfRange

/-- The base-relative immediate `arg + MEM[0]` (R113 (c), R181): exact, no flag; presence, then NotAWord, then
ValueOutOfRange (R413). -/
def State.varAddress (s : State) (arg : OptWord) : Except FaultKind Int := do
  let x ← need arg
  let base ← s.memWord 0
  checkedWord (x + base)

/-- The character code EMIT appends (R190): presence, then the code range (R413). -/
def State.charCode (s : State) (v : OptWord) : Except FaultKind Nat := do
  let c ← need v
  if 0 ≤ c ∧ c ≤ s.params.charCodeMax then .ok c.toNat else .error .badCharCode

/-- The digits of `n` as character codes, most significant first, with no leading zero (R374). The first argument bounds
the number of digits; `n + 1` is always enough. -/
def digitCodes : Nat → Nat → List Nat
  | 0,        _ => []
  | fuel + 1, n => if n < 10 then [48 + n] else digitCodes fuel (n / 10) ++ [48 + n % 10]

/-- `decimal(w)` (R374): the code 45 first if `w < 0`, then the digits of `|w|`. -/
def decimal (w : Int) : List Nat :=
  (if w < 0 then [45] else []) ++ digitCodes (w.natAbs + 1) w.natAbs

end Sys2Proof.Machine
end

