-- ==== Sys2Proof/Machine/Flags.lean ====
section
/-! DEFINITION. The ALU: its nine operations, its flags and its wrap (spec/40_alu.md R140 to R147). -/

namespace Sys2Proof.Machine

/-- The nine operations, in the index order of R141. -/
inductive AluOp where
  | add | sub | mul | div | mod | ne | eq | lt | gt
  deriving DecidableEq, Repr

/-- The operation index `k` of R141. -/
def AluOp.index : AluOp → Nat
  | .add => 0
  | .sub => 1
  | .mul => 2
  | .div => 3
  | .mod => 4
  | .ne  => 5
  | .eq  => 6
  | .lt  => 7
  | .gt  => 8

/-- Floor division (R143). -/
def floordiv (a b : Int) : Int := Int.fdiv a b

/-- Floor modulo; its sign follows `b` (R143). -/
def floormod (a b : Int) : Int := a - b * floordiv a b

/-- 1 when a relation holds, else 0 (R141). -/
def truth (p : Bool) : Int := if p then 1 else 0

/-- The exact result `r` of an operation (R141); `a` is the first, left operand (R142). -/
def exactResult (k : AluOp) (a b : Int) : Int :=
  match k with
  | .add => a + b
  | .sub => a - b
  | .mul => a * b
  | .div => floordiv a b
  | .mod => floormod a b
  | .ne  => truth (decide (a ≠ b))
  | .eq  => truth (decide (a = b))
  | .lt  => truth (decide (a < b))
  | .gt  => truth (decide (a > b))

/-- N (R145), from the exact result. -/
def negative (r : Int) : Bool := decide (r < 0)

/-- Z (R145), from the exact result. -/
def zero (r : Int) : Bool := decide (r = 0)

/-- V (R146): the exact result falls outside the Word range. -/
def overflow (r : Int) : Bool := decide (r > wordMax ∨ r < wordMin)

/-- The asymmetric wrap (R146): modulo MAX_INT above the range, modulo |MIN_INT| below it. -/
def wrap (r : Int) : Int :=
  if r > wordMax then floormod r 2147483647
  else if r < wordMin then floormod r 2147483648
  else r

/-- The operations that divide (R144). -/
def AluOp.divides : AluOp → Bool
  | .div | .mod => true
  | _           => false

/-- The ALU state an operation with exact result `r` leaves (R145 to R147). -/
def State.setAlu (s : State) (r : Int) : State :=
  { s with aluRes := wrap r, flagN := negative r, flagZ := zero r, flagV := overflow r }

/-- `alu_op(k)` (R147): operand presence, then division by zero, then the result and all three flags. -/
def State.aluOp (s : State) (k : AluOp) : Except FaultKind State := do
  let a ← need s.aluA
  let b ← need s.aluB
  if k.divides ∧ b = 0 then .error .divisionByZero else .ok (s.setAlu (exactResult k a b))

end Sys2Proof.Machine
end

