-- ==== Sys2Proof/Machine/Signals.lean ====
section
/-! DEFINITION. The micro-signals: every handler of spec/41_datapath_signals.md R171 to R192 and the control unit's own
signals of 42_control_unit.md R231, R232, R235 to R237. -/

namespace Sys2Proof.Machine

/-- The signals, under the spec's names (R170). -/
inductive Signal where
  | arFromPc | arFromTos
  | memRead | memWrite | memLatchTos
  | irDecode
  | tosFromAlu | tosFromBr | tosFromMem | tosFromArg | tosFromVarAddr
  | pcInc
  | dsPush | dsPop
  | aluLoad
  | aluOp (k : AluOp)
  | brFromPop
  | ioPrint | ioRead | ioEmit
  | jumpIfZ | jump
  | mpcNext | mpcZero | mpcOpcode
  | halt
  | invalid
  deriving DecidableEq, Repr

/-- The handler categories (R170). -/
inductive SignalCategory where
  | addressRegister | memory | instructionRegister | topOfStack | programCounter | dataStack | aluLoad | aluOperation
  | bufferRegister | io | jump | microcodeAddress | halt
  deriving DecidableEq, Repr

/-- The category a signal belongs to (R170); INVALID belongs to none (R237). -/
def Signal.category : Signal → Option SignalCategory
  | .arFromPc | .arFromTos => some .addressRegister
  | .memRead | .memWrite | .memLatchTos => some .memory
  | .irDecode => some .instructionRegister
  | .tosFromAlu | .tosFromBr | .tosFromMem | .tosFromArg | .tosFromVarAddr => some .topOfStack
  | .pcInc => some .programCounter
  | .dsPush | .dsPop => some .dataStack
  | .aluLoad => some .aluLoad
  | .aluOp _ => some .aluOperation
  | .brFromPop => some .bufferRegister
  | .ioPrint | .ioRead | .ioEmit => some .io
  | .jumpIfZ | .jump => some .jump
  | .mpcNext | .mpcZero | .mpcOpcode => some .microcodeAddress
  | .halt => some .halt
  | .invalid => none

/-- FIRST_ROW, the opcode-to-row map (42_control_unit.md R240). -/
def firstRow : Opcode → Nat
  | .sum       => 2
  | .sub       => 6
  | .mul       => 10
  | .div       => 14
  | .mod       => 18
  | .eq        => 22
  | .notEq     => 26
  | .more      => 30
  | .less      => 34
  | .dup       => 38
  | .drop      => 41
  | .swap      => 42
  | .push      => 47
  | .addrOnTop => 49
  | .saveVar   => 51
  | .varOnTop  => 56
  | .jzs       => 60
  | .jmp       => 62
  | .halt      => 64
  | .print     => 65
  | .read      => 67
  | .emit      => 69

/-- What a signal does: the state it leaves, or the kind of its fault. The checks come before any write (R194). -/
def signalEffect (g : Signal) (s : State) : Except FaultKind State :=
  match g with
  | .arFromPc => .ok { s with ar := s.pc }                                                       -- R171
  | .arFromTos => do                                                                             -- R172
    let w ← need s.tos
    .ok { s with ar := w }
  | .memRead => do                                                                               -- R173
    let c ← s.memRead s.ar
    .ok { s with latch := c }
  | .memWrite => s.memWrite s.ar s.latch                                                         -- R174
  | .memLatchTos => do                                                                           -- R175
    let w ← need s.tos
    .ok { s with latch := .word w }
  | .irDecode => .ok { s with ir := decodeCell s.latch }                                         -- R176
  | .tosFromAlu => .ok { s with tos := some s.aluRes }                                           -- R177
  | .tosFromBr => .ok { s with tos := s.br }                                                     -- R178
  | .tosFromMem => do                                                                            -- R179
    let w ← s.memWord s.ar
    .ok { s with tos := some w }
  | .tosFromArg => .ok { s with tos := s.ir.arg }                                                -- R180
  | .tosFromVarAddr => do                                                                        -- R181
    let w ← s.varAddress s.ir.arg
    .ok { s with tos := some w }
  | .pcInc => .ok { s with pc := s.pc + 1 }                                                      -- R182
  | .dsPush => s.push s.tos                                                                      -- R183
  | .dsPop => .ok s.pop                                                                          -- R184
  | .aluLoad => .ok { s.pop with aluA := s.tos, aluB := s.popped }                               -- R185
  | .aluOp k => s.aluOp k                                                                        -- R186
  | .brFromPop => .ok { s.pop with br := s.popped }                                              -- R187
  | .ioPrint => do                                                                               -- R188
    let w ← need s.tos
    .ok (s.emitCodes (decimal w))
  | .ioRead =>                                                                                   -- R189
    match s.input with
    | []        => .ok { s with tos := some 0 }
    | c :: rest => .ok { s with tos := some c, input := rest }
  | .ioEmit => do                                                                                -- R190
    let c ← s.charCode s.tos
    .ok (s.emitCodes [c])
  | .jumpIfZ => if s.flagZ then (do let t ← need s.tos; .ok { s with pc := t }) else .ok s       -- R191
  | .jump => do                                                                                  -- R192
    let t ← need s.tos
    .ok { s with pc := t }
  | .mpcNext => .ok { s with mpc := s.mpc + 1 }                                                  -- R231
  | .mpcZero => .ok { s with mpc := 0 }                                                          -- R232
  | .mpcOpcode =>                                                                                -- R235
    match s.ir.opcode? with
    | some o => .ok { s with mpc := firstRow o, instrCount := s.instrCount + 1 }
    | none   => .error .noOpcode
  | .halt => .ok { s with status := .halted }                                                    -- R236
  | .invalid => .error .invalidSignal                                                            -- R237

/-- Execute one signal: its effect, or its fault raised in the unchanged state (R194, R400). -/
def execSignal (g : Signal) (s : State) : State :=
  match signalEffect g s with
  | .ok t    => t
  | .error k => s.raise k

end Sys2Proof.Machine
end

