-- ==== Sys2Proof/Machine/Microcode.lean ====
section
/-! DEFINITION. The microcode table (spec/42_control_unit.md R241), the row step (R233, R234), the run loop's body (R242),
and running an opcode's microsequence to its end. -/

namespace Sys2Proof.Machine

/-- A row: its signals, in the order they are applied (R234). -/
abbrev Row := List Signal

/-- Rows 0 and 1, the universal fetch sequence (R241). -/
def fetchRows : List Row :=
  [[.arFromPc, .memRead, .mpcNext],
   [.irDecode, .mpcOpcode]]

/-- The four rows of a binary operation (43_arithmetic.md R270; rows 2 to 37 of R241). -/
def binaryRows (k : AluOp) : List Row :=
  [[.brFromPop, .mpcNext],
   [.tosFromBr, .aluLoad, .mpcNext],
   [.aluOp k, .tosFromAlu, .mpcNext],
   [.dsPush, .pcInc, .mpcZero]]

/-- Rows 38 to 40. -/
def dupRows : List Row :=
  [[.brFromPop, .mpcNext],
   [.tosFromBr, .dsPush, .mpcNext],
   [.dsPush, .pcInc, .mpcZero]]

/-- Row 41. -/
def dropRows : List Row :=
  [[.dsPop, .pcInc, .mpcZero]]

/-- Rows 42 to 46. -/
def swapRows : List Row :=
  [[.brFromPop, .mpcNext],
   [.tosFromBr, .mpcNext],
   [.brFromPop, .mpcNext],
   [.dsPush, .mpcNext],
   [.tosFromBr, .dsPush, .pcInc, .mpcZero]]

/-- Rows 47 and 48. -/
def pushRows : List Row :=
  [[.tosFromArg, .mpcNext],
   [.dsPush, .pcInc, .mpcZero]]

/-- Rows 49 and 50. -/
def addrOnTopRows : List Row :=
  [[.tosFromVarAddr, .mpcNext],
   [.dsPush, .pcInc, .mpcZero]]

/-- Rows 51 to 55. -/
def saveVarRows : List Row :=
  [[.brFromPop, .mpcNext],
   [.tosFromBr, .arFromTos, .mpcNext],
   [.brFromPop, .mpcNext],
   [.tosFromBr, .memLatchTos, .mpcNext],
   [.memWrite, .pcInc, .mpcZero]]

/-- Rows 56 to 59. -/
def varOnTopRows : List Row :=
  [[.brFromPop, .mpcNext],
   [.tosFromBr, .arFromTos, .mpcNext],
   [.tosFromMem, .mpcNext],
   [.dsPush, .pcInc, .mpcZero]]

/-- Rows 60 and 61. -/
def jzsRows : List Row :=
  [[.tosFromArg, .pcInc, .mpcNext],
   [.jumpIfZ, .mpcZero]]

/-- Rows 62 and 63. -/
def jmpRows : List Row :=
  [[.tosFromArg, .mpcNext],
   [.jump, .mpcZero]]

/-- Row 64. -/
def haltRows : List Row :=
  [[.halt]]

/-- Rows 65 and 66. -/
def printRows : List Row :=
  [[.brFromPop, .mpcNext],
   [.tosFromBr, .ioPrint, .pcInc, .mpcZero]]

/-- Rows 67 and 68. -/
def readRows : List Row :=
  [[.ioRead, .mpcNext],
   [.dsPush, .pcInc, .mpcZero]]

/-- Rows 69 and 70. -/
def emitRows : List Row :=
  [[.brFromPop, .mpcNext],
   [.tosFromBr, .ioEmit, .pcInc, .mpcZero]]

/-- TABLE, rows 0 to 70 (R241). -/
def table : List Row :=
  fetchRows
    ++ (binaryRows .add ++ binaryRows .sub ++ binaryRows .mul ++ binaryRows .div ++ binaryRows .mod)
    ++ (binaryRows .eq ++ binaryRows .ne ++ binaryRows .gt ++ binaryRows .lt)
    ++ (dupRows ++ dropRows ++ swapRows ++ pushRows)
    ++ (addrOnTopRows ++ saveVarRows ++ varOnTopRows)
    ++ (jzsRows ++ jmpRows ++ haltRows)
    ++ (printRows ++ readRows ++ emitRows)

/-- `step_row` of R234 on a given row: the signals one after another, stopping at once when STATUS leaves `running`; a row
that completes is one tick (R238). -/
def runSignals (row : Row) (s : State) : State :=
  match row with
  | []        => { s with tickCount := s.tickCount + 1 }
  | g :: rest =>
    let t := execSignal g s
    if t.status = .running then runSignals rest t else t

/-- `step_row` of R234 on a table given as an argument, as R237's negative test needs; MPC is read once, before the row.
A micro-address outside the table has no row and nothing happens (log 10). -/
def stepRowIn (tbl : List Row) (s : State) : State :=
  match tbl[s.mpc]? with
  | some row => runSignals row s
  | none     => s

/-- `step_row` of R234 on the fixed table. -/
def stepRow (s : State) : State := stepRowIn table s

/-- One turn of the run loop (R242): the ceiling test at an instruction boundary (R243), else one row. This is the spec's
own step (R15, R233). -/
def rowStep (s : State) : Host.Outcome State Fault Refusal :=
  match s.ended with
  | some f => .fault f
  | none =>
    if s.mpc = 0 ∧ s.params.instrLimit ≤ s.instrCount then .next { s with status := .limit }
    else if s.mpc < nURows then .next (stepRow s)
    else .fault .microAddressOutsideTable

/-- At most `fuel` rows, up to the row that sets MPC back to 0 or ends the run (R15). -/
def finish (fuel : Nat) (s : State) : State :=
  match fuel with
  | 0        => s
  | fuel + 1 => if s.mpc = 0 ∨ s.status ≠ .running then s else finish fuel (stepRow s)

/-- What IR_DECODE and MPC_OPCODE leave in IR and MPC for a dispatched instruction (R176, R235). After a fetch both hold
already (log 12). -/
def State.enter (s : State) (i : Instr) : State :=
  { s with ir := .record (some i.opcode) i.arg i.sourceTag, mpc := firstRow i.opcode }

/-- An instruction's meaning: its microsequence, from its first row (R15, R241). MPC only rises inside a microsequence, so
N_UROWS rows are enough. A run that has ended takes no row (R57). -/
def runMicrosequence (i : Instr) (s : State) : Host.Outcome State Fault Refusal :=
  match s.ended with
  | some f => .fault f
  | none   => .next (finish nURows (s.enter i))

end Sys2Proof.Machine
end

