-- ==== Sys2Proof/Machine/Arithmetic.lean ====
section
/-! DEFINITION. The meanings of the arithmetic instructions (spec/43_arithmetic.md): each is its own
microsequence of 42_control_unit.md R241. -/

namespace Sys2Proof.Machine

/-- SUM (R271; rows 2 to 5): pop x (the top) and y, push `wrap(x + y)`; N, Z, V from the exact sum. OperandAbsent with fewer than two elements. -/
def execSum (arg : OptWord) (tag : Option SourceTag) (s : State) : Host.Outcome State Fault Refusal :=
  runMicrosequence (.sum arg tag) s

/-- SUB (R272; rows 6 to 9): pop x (the top) and y, push `wrap(x - y)`, the top minus the element below. OperandAbsent with fewer than two elements. -/
def execSub (arg : OptWord) (tag : Option SourceTag) (s : State) : Host.Outcome State Fault Refusal :=
  runMicrosequence (.sub arg tag) s

/-- MUL (R273; rows 10 to 13): pop x (the top) and y, push `wrap(x * y)`. OperandAbsent with fewer than two elements. -/
def execMul (arg : OptWord) (tag : Option SourceTag) (s : State) : Host.Outcome State Fault Refusal :=
  runMicrosequence (.mul arg tag) s

/-- DIV (R274; rows 14 to 17): pop x (the dividend, the top) and y, push `wrap(floordiv(x, y))`. OperandAbsent with fewer than two elements;
DivisionByZero when y = 0, after both pops and with no ALU state written. -/
def execDiv (arg : OptWord) (tag : Option SourceTag) (s : State) : Host.Outcome State Fault Refusal :=
  runMicrosequence (.div arg tag) s

/-- MOD (R275; rows 18 to 21): pop x (the dividend, the top) and y, push `floormod(x, y)`, whose sign follows y. OperandAbsent with fewer than two
elements; DivisionByZero when y = 0, after both pops and with no ALU state written. -/
def execMod (arg : OptWord) (tag : Option SourceTag) (s : State) : Host.Outcome State Fault Refusal :=
  runMicrosequence (.mod arg tag) s

end Sys2Proof.Machine
end

