-- ==== Sys2Proof/Machine/Comparison.lean ====
section
/-! DEFINITION. The meanings of the comparison instructions (spec/44_comparison.md): each is its own
microsequence of 42_control_unit.md R241. -/

namespace Sys2Proof.Machine

/-- EQ (R291; rows 22 to 25): pop x (the top) and y, push 1 if x = y else 0; Z = 1 iff false. OperandAbsent with fewer than two elements. -/
def execEq (arg : OptWord) (tag : Option SourceTag) (s : State) : Host.Outcome State Fault Refusal :=
  runMicrosequence (.eq arg tag) s

/-- NOT_EQ (R292; rows 26 to 29): pop x (the top) and y, push 1 if x != y else 0; Z = 1 iff false. OperandAbsent with fewer than two elements. -/
def execNotEq (arg : OptWord) (tag : Option SourceTag) (s : State) : Host.Outcome State Fault Refusal :=
  runMicrosequence (.notEq arg tag) s

/-- MORE (R293; rows 30 to 33): pop x (the top) and y, push 1 if x > y else 0; Z = 1 iff false. OperandAbsent with fewer than two elements. -/
def execMore (arg : OptWord) (tag : Option SourceTag) (s : State) : Host.Outcome State Fault Refusal :=
  runMicrosequence (.more arg tag) s

/-- LESS (R294; rows 34 to 37): pop x (the top) and y, push 1 if x < y else 0; Z = 1 iff false. OperandAbsent with fewer than two elements. -/
def execLess (arg : OptWord) (tag : Option SourceTag) (s : State) : Host.Outcome State Fault Refusal :=
  runMicrosequence (.less arg tag) s

end Sys2Proof.Machine
end

