-- ==== Sys2Proof/Machine/Control.lean ====
section
/-! DEFINITION. The meanings of the control-transfer instructions (spec/47_control_transfer.md): each is its own
microsequence of 42_control_unit.md R241. -/

namespace Sys2Proof.Machine

/-- JZS (R351; rows 60 to 61): PC becomes the arg if Z = 1 and the next address otherwise; the stack is not read. -/
def execJzs (arg : OptWord) (tag : Option SourceTag) (s : State) : Host.Outcome State Fault Refusal :=
  runMicrosequence (.jzs arg tag) s

/-- JMP (R352; rows 62 to 63): PC becomes the arg. -/
def execJmp (arg : OptWord) (tag : Option SourceTag) (s : State) : Host.Outcome State Fault Refusal :=
  runMicrosequence (.jmp arg tag) s

/-- HALT (R353; row 64): STATUS becomes `halted`; PC stays, MPC stays 64, the row is no tick. -/
def execHalt (arg : OptWord) (tag : Option SourceTag) (s : State) : Host.Outcome State Fault Refusal :=
  runMicrosequence (.halt arg tag) s

end Sys2Proof.Machine
end

