-- ==== Sys2Proof/Machine/InputOutput.lean ====
section
/-! DEFINITION. The meanings of the I/O instructions (spec/48_io.md): each is its own
microsequence of 42_control_unit.md R241. -/

namespace Sys2Proof.Machine

/-- PRINT (R371; rows 65 to 66): pop x and append `decimal(x)` to OUT. OperandAbsent on an empty stack. -/
def execPrint (arg : OptWord) (tag : Option SourceTag) (s : State) : Host.Outcome State Fault Refusal :=
  runMicrosequence (.print arg tag) s

/-- READ (R372; rows 67 to 68): push the front code of IN, removing it, or 0 when IN is empty. StackOverflow at depth 64, the code then being lost. -/
def execRead (arg : OptWord) (tag : Option SourceTag) (s : State) : Host.Outcome State Fault Refusal :=
  runMicrosequence (.read arg tag) s

/-- EMIT (R373; rows 69 to 70): pop x and append the code x to OUT. OperandAbsent on an empty stack; BadCharCode outside `[0, CHAR_CODE_MAX]`. -/
def execEmit (arg : OptWord) (tag : Option SourceTag) (s : State) : Host.Outcome State Fault Refusal :=
  runMicrosequence (.emit arg tag) s

end Sys2Proof.Machine
end

