-- ==== Sys2Proof/Machine/Memory.lean ====
section
/-! DEFINITION. The meanings of the memory instructions (spec/46_memory_ops.md): each is its own
microsequence of 42_control_unit.md R241. -/

namespace Sys2Proof.Machine

/-- ADDR_ON_TOP (R330; rows 49 to 50): push `arg + MEM[0]`, exact, no flag. ValueOutOfRange, NotAWord or StackOverflow. -/
def execAddrOnTop (arg : OptWord) (tag : Option SourceTag) (s : State) : Host.Outcome State Fault Refusal :=
  runMicrosequence (.addrOnTop arg tag) s

/-- SAVE_VAR (R331; rows 51 to 55): pop the address x (the top), then the value y; `MEM[x] <- word y`. OperandAbsent, or MemoryOutOfRange after both
pops. -/
def execSaveVar (arg : OptWord) (tag : Option SourceTag) (s : State) : Host.Outcome State Fault Refusal :=
  runMicrosequence (.saveVar arg tag) s

/-- VAR_ON_TOP (R332; rows 56 to 59): pop the address x, push the Word of MEM[x]. OperandAbsent, MemoryOutOfRange or NotAWord. -/
def execVarOnTop (arg : OptWord) (tag : Option SourceTag) (s : State) : Host.Outcome State Fault Refusal :=
  runMicrosequence (.varOnTop arg tag) s

end Sys2Proof.Machine
end

