-- ==== Sys2Proof/Machine/Stack.lean ====
section
/-! DEFINITION. The meanings of the stack instructions (spec/45_stack.md): each is its own
microsequence of 42_control_unit.md R241. -/

namespace Sys2Proof.Machine

/-- DUP (R310; rows 38 to 40): push the top once more; a no-op on an empty stack. StackOverflow at depth 64, with the stack as before. -/
def execDup (arg : OptWord) (tag : Option SourceTag) (s : State) : Host.Outcome State Fault Refusal :=
  runMicrosequence (.dup arg tag) s

/-- DROP (R311; row 41): discard the top; a no-op on an empty stack. No fault; BR and TOS keep their values. -/
def execDrop (arg : OptWord) (tag : Option SourceTag) (s : State) : Host.Outcome State Fault Refusal :=
  runMicrosequence (.drop arg tag) s

/-- SWAP (R312; rows 42 to 46): exchange the top two elements; a shorter stack is unchanged. No fault. -/
def execSwap (arg : OptWord) (tag : Option SourceTag) (s : State) : Host.Outcome State Fault Refusal :=
  runMicrosequence (.swap arg tag) s

/-- PUSH (R313; rows 47 to 48): push the arg. StackOverflow at depth 64. -/
def execPush (arg : OptWord) (tag : Option SourceTag) (s : State) : Host.Outcome State Fault Refusal :=
  runMicrosequence (.push arg tag) s

end Sys2Proof.Machine
end

