-- ==== Sys2Proof/Machine/Dispatch.lean ====
section
/-! DEFINITION. exec: one arm per constructor of Instr, each a direct call of that instruction's meaning. -/

namespace Sys2Proof.Machine

def exec (i : Instr) (s : State) : Host.Outcome State Fault Refusal :=
  match i with
  | .sum arg tag => Sys2Proof.Machine.execSum arg tag s
  | .sub arg tag => Sys2Proof.Machine.execSub arg tag s
  | .mul arg tag => Sys2Proof.Machine.execMul arg tag s
  | .div arg tag => Sys2Proof.Machine.execDiv arg tag s
  | .mod arg tag => Sys2Proof.Machine.execMod arg tag s
  | .eq arg tag => Sys2Proof.Machine.execEq arg tag s
  | .notEq arg tag => Sys2Proof.Machine.execNotEq arg tag s
  | .more arg tag => Sys2Proof.Machine.execMore arg tag s
  | .less arg tag => Sys2Proof.Machine.execLess arg tag s
  | .dup arg tag => Sys2Proof.Machine.execDup arg tag s
  | .drop arg tag => Sys2Proof.Machine.execDrop arg tag s
  | .swap arg tag => Sys2Proof.Machine.execSwap arg tag s
  | .push arg tag => Sys2Proof.Machine.execPush arg tag s
  | .addrOnTop arg tag => Sys2Proof.Machine.execAddrOnTop arg tag s
  | .saveVar arg tag => Sys2Proof.Machine.execSaveVar arg tag s
  | .varOnTop arg tag => Sys2Proof.Machine.execVarOnTop arg tag s
  | .jzs arg tag => Sys2Proof.Machine.execJzs arg tag s
  | .jmp arg tag => Sys2Proof.Machine.execJmp arg tag s
  | .halt arg tag => Sys2Proof.Machine.execHalt arg tag s
  | .print arg tag => Sys2Proof.Machine.execPrint arg tag s
  | .read arg tag => Sys2Proof.Machine.execRead arg tag s
  | .emit arg tag => Sys2Proof.Machine.execEmit arg tag s

end Sys2Proof.Machine
end

