-- ==== Sys2Proof/Machine/Fetch.lean ====
section
/-! DEFINITION. Fetching and dispatching one instruction (spec/42_control_unit.md R235, R241 rows 0 and 1), and what stands
around it: the ended run, the ceiling, an instruction in progress. -/

namespace Sys2Proof.Machine

/-- The fetch sequence: row 0 and, if it did not fault, row 1 (R241). -/
def fetch (s : State) : State :=
  let t := stepRow s
  if t.status = .running then stepRow t else t

/-- Run the instruction that a fetch left in IR; a fetch that faulted has already ended the run. An IR without an opcode
never gets past MPC_OPCODE (R235), so the last arm is NoOpcode again. -/
def dispatch (t : State) : Host.Outcome State Fault Refusal :=
  if t.status = .running then
    match t.ir with
    | .record (some o) arg tag => exec (Instr.ofParts o arg tag) t
    | _                        => .next (t.raise .noOpcode)
  else .next t

/-- One instruction of the run loop (R242): at a boundary the ceiling test (R243), then fetch and dispatch; inside an
instruction, the rest of its rows (log 18). -/
def stepInstruction (s : State) : Host.Outcome State Fault Refusal :=
  match s.ended with
  | some f => .fault f
  | none =>
    if s.mpc = 0 then
      if s.params.instrLimit ≤ s.instrCount then .next { s with status := .limit }
      else dispatch (fetch s)
    else if s.mpc < nURows then .next (finish nURows s)
    else .fault .microAddressOutsideTable

/-- The address the next fetch reads, with a PC below 0 replaced by the entry point 1 (log 9). -/
def State.fetchAddress (s : State) : Nat := if 0 ≤ s.pc then s.pc.toNat else 1

/-- Place a cell where the next step fetches, and set what that fetch needs: a running state at an instruction boundary,
PC inside the memory, the ceiling not reached (log 9). In the reset state only the memory changes. -/
def State.placeAtFetch (s : State) (c : Cell) : State :=
  { s with
    mem    := s.mem.write s.fetchAddress c
    pc     := s.fetchAddress
    mpc    := 0
    status := .running
    params := { s.params with
      memSize    := max s.params.memSize (s.fetchAddress + 1)
      instrLimit := max s.params.instrLimit (s.instrCount + 1) } }

/-- The cell a word of spec/opcode_table.json stands for (log 8): the instruction it decodes to, or, where it is none, a
cell that holds no instruction. -/
def cellOfTableWord (nbits w : Nat) : Cell :=
  match decodeTableWord nbits w with
  | some i => .instr i
  | none   => .word (w % 2 ^ nbits % 32 : Nat)

end Sys2Proof.Machine
end

