-- ==== Sys2Proof/Machine/Step.lean ====
section
/-! DEFINITION. The machine's step, one instruction (log 2), and placing the instruction it runs next. -/

namespace Sys2Proof.Machine

/-- One step: one instruction of the run loop (spec/42_control_unit.md R242; log 2). -/
def step (s : State) : Host.Outcome State Fault Refusal := stepInstruction s

/-- `s` with the instruction of a table word stored where `step` fetches next (log 9). -/
def State.withFetchWord (s : State) (nbits w : Nat) : State := s.placeAtFetch (cellOfTableWord nbits w)

end Sys2Proof.Machine
end

