-- ==== Sys2Proof/Machine/Loader.lean ====
section
/-! DEFINITION. The loader: its checks (spec/30_encoding.md R108), the initial memory image (70_reset_and_hazards.md R452)
and the state at the start of a run (R450 to R453). -/

namespace Sys2Proof.Machine

/-- Why the loader gives no run (R108, R451). -/
inductive LoadRefusal where
  /-- Check 1: no record. -/
  | emptyProgram
  /-- Check 2: a record's opcode is outside the 22. -/
  | badOpcode (ordinal : Nat)
  /-- Check 3: the last record is not HALT. -/
  | lastNotHalt
  /-- Checks 4 and 5: a required arg is absent or an arg is not a Word. -/
  | badArgument
  /-- Check 6: the program and the header cell do not fit in the memory. -/
  | programTooLarge
  /-- R9: MEM_SIZE is above 2^31 - 1 (log 17). -/
  | memoryTooLarge
  /-- Check 7: an input code is above CHAR_CODE_MAX. -/
  | badInputCode
  deriving DecidableEq, Repr

/-- Check 2 on every record: the instructions, or the first ordinal that is none. -/
def decodeAll : List Record → Except LoadRefusal (List Instr)
  | []        => .ok []
  | r :: rest =>
    match decode r with
    | .error (.opcodeOutsideTable n) => .error (.badOpcode n)
    | .ok i =>
      match decodeAll rest with
      | .error e => .error e
      | .ok is   => .ok (i :: is)

/-- Check 3. -/
def lastIsHalt (prog : List Instr) : Bool :=
  match prog.getLast? with
  | some i => decide (i.opcode = .halt)
  | none   => false

/-- The instructions of a program at the addresses from `a` on. -/
def placeFrom (a : Nat) : List Instr → Memory
  | []        => []
  | i :: rest => (a, .instr i) :: placeFrom (a + 1) rest

/-- The initial memory (R452): cell 0 holds `word (N + 1)`, cells 1 to N the program, every other cell word 0. -/
def image (prog : List Instr) : Memory := (0, .word (prog.length + 1)) :: placeFrom 1 prog

/-- The state at the start of a run (R450, R453): the loaded image, the host's input queue and parameters, and every
other piece at its reset value. -/
def State.initial (p : Params) (prog : List Instr) (input : List Nat) : State :=
  { State.reset with params := p, mem := image prog, input := input }

/-- The loader (R108, R451): the initial state, or the first check that fails. -/
def load (p : Params) (records : List Record) (input : List Nat) : Except LoadRefusal State :=
  match decodeAll records with
  | .error e => .error e
  | .ok prog =>
    if prog.length = 0 then .error .emptyProgram
    else if !lastIsHalt prog then .error .lastNotHalt
    else if !prog.all Instr.wellFormed then .error .badArgument
    else if p.memSize < prog.length + 1 then .error .programTooLarge
    else if wordMax < (p.memSize : Int) then .error .memoryTooLarge
    else if !input.all (fun c => decide (c ≤ p.charCodeMax)) then .error .badInputCode
    else .ok (State.initial p prog input)

end Sys2Proof.Machine
end

