-- ==== Sys2Proof/Safety.lean ====
section
/-! DEFINITION. What every state of a run looks like: the invariant that the spec's own sentences give (spec/00_scope.md
R10; 10_state.md R47, R55; 20_memory.md; 48_io.md R370), in the terms statements use. -/

namespace Sys2Proof.Machine

/-- A cell's Word, or every part of its record, is what the loader and the ALU allow (R10, R108). -/
def Cell.wf : Cell → Bool
  | .word w  => decide (IsWord w)
  | .instr i => i.wellFormed

/-- The arg IR holds is a Word or absent (R34). -/
abbrev IRVal.wf (v : IRVal) : Prop := OptIsWord v.arg

/-- The registers hold Words, or absent where R35 lets them (R10, R36). -/
structure State.RegistersHoldWords (s : State) : Prop where
  pc     : IsWord s.pc
  ar     : IsWord s.ar
  ir     : s.ir.wf
  br     : OptIsWord s.br
  tos    : OptIsWord s.tos
  aluA   : OptIsWord s.aluA
  aluB   : OptIsWord s.aluB
  aluRes : IsWord s.aluRes
  latch  : s.latch.wf = true

/-- The data stack is within its bound and holds Words (R44, R47). -/
structure State.StackSound (s : State) : Prop where
  depth : s.stack.length ≤ stackDepth
  words : ∀ w ∈ s.stack, IsWord w

/-- The memory is in canonical form, lists addresses inside it only, and its cells are well-formed (R50, R72; log 7). -/
structure State.MemorySound (s : State) : Prop where
  canonical : s.mem.wf
  inside    : ∀ p ∈ s.mem, p.1 < s.params.memSize
  cells     : ∀ p ∈ s.mem, p.2.wf = true

/-- Both buffers hold character codes in `[0, CHAR_CODE_MAX]` (R370). -/
structure State.BuffersSound (s : State) : Prop where
  input  : ∀ c ∈ s.input, c ≤ s.params.charCodeMax
  output : ∀ c ∈ s.output, c ≤ s.params.charCodeMax

/-- The sequencer: MPC is a row of the table (R55), and a running state is at an instruction boundary, as every step leaves
it (R55: "it resets to 0 after finishing any opcode's microsequence"). -/
structure State.SequencerSound (s : State) : Prop where
  row      : s.mpc < nURows
  boundary : s.status = .running → s.mpc = 0

/-- The invariant of the spec's own step, one row: the same, but for the sequencer. Inside an instruction PC is still an
address of the memory until PC_INC, so that PC_INC gives a Word; row 61 is the one row entered after its PC_INC (R350,
D37). -/
structure State.RowInv (s : State) : Prop where
  params    : s.params.wf
  registers : s.RegistersHoldWords
  stack     : s.StackSound
  memory    : s.MemorySound
  buffers   : s.BuffersSound
  row       : s.mpc < nURows
  pcRoom    : s.status = .running → s.mpc ≠ 0 → s.mpc ≠ 61 → s.pc < s.params.memSize

/-- The invariant every step keeps. -/
structure State.Inv (s : State) : Prop where
  params    : s.params.wf
  registers : s.RegistersHoldWords
  stack     : s.StackSound
  memory    : s.MemorySound
  buffers   : s.BuffersSound
  sequencer : s.SequencerSound

end Sys2Proof.Machine
end

