-- ==== Sys2Proof/Certificates/Slice0/Obligations.lean ====
section
/-! DEFINITION. The statements about this model, for the provers. Each docstring names the rule of spec/ it formalises. -/

open Sys2Proof Sys2Proof.Machine

namespace Sys2Proof.Statements

/-- An outcome's equation: executing `i` in `s` completes with the state `t`. -/
abbrev Runs (i : Instr) (s t : State) : Prop := Machine.exec i s = .next t

/-- IR and MPC as the dispatch of a record leaves them, MPC being at the row `m` (41_datapath_signals.md R176). -/
abbrev inRow (s : State) (o : Opcode) (arg : OptWord) (tag : Option SourceTag) (m : Nat) : State :=
  { s with ir := .record (some o) arg tag, mpc := m }

/-- The state a completed arithmetic instruction leaves, `r` being its exact result (43_arithmetic.md R270, 40_alu.md R145
to R147): `S ++ [y, x]` has become `S ++ [wrap r]`. -/
def arithmeticDone (s : State) (o : Opcode) (arg : OptWord) (tag : Option SourceTag) (S : List Int) (y x r : Int) : State :=
  { inRow s o arg tag 0 with
    br        := some x
    tos       := some (wrap r)
    aluA      := some x
    aluB      := some y
    aluRes    := wrap r
    flagN     := decide (r < 0)
    flagZ     := decide (r = 0)
    flagV     := decide (r > 2147483647 ∨ r < -2147483648)
    stack     := S ++ [wrap r]
    pc        := s.pc + 1
    tickCount := s.tickCount + 4 }

/-- The state a completed comparison leaves, `p` saying whether its relation holds (44_comparison.md R290): the pushed
result is 1 or 0, N = V = 0, and Z = 1 exactly when the relation is false. -/
def comparisonDone (s : State) (o : Opcode) (arg : OptWord) (tag : Option SourceTag) (S : List Int) (y x : Int)
    (p : Bool) : State :=
  { inRow s o arg tag 0 with
    br        := some x
    tos       := some (if p then 1 else 0)
    aluA      := some x
    aluB      := some y
    aluRes    := if p then 1 else 0
    flagN     := false
    flagZ     := !p
    flagV     := false
    stack     := S ++ [if p then 1 else 0]
    pc        := s.pc + 1
    tickCount := s.tickCount + 4 }

/-- The state in which a binary operation faults with OperandAbsent on a stack of fewer than two elements, at its third
row, `m`: the stack is empty, and `x` is what the first pop gave (R270). -/
def operandsMissing (s : State) (o : Opcode) (arg : OptWord) (tag : Option SourceTag) (m : Nat) (x : OptWord) : State :=
  { inRow s o arg tag m with
    br        := x
    tos       := x
    aluA      := x
    aluB      := none
    stack     := []
    tickCount := s.tickCount + 2
    status    := .fault .operandAbsent }

/-- A binary operation's faults on a short stack (R270, R290). -/
abbrev FaultsOnShortStack (i : Instr) (m : Nat) (s : State) : Prop :=
  (∀ x, s.stack = [x] → Runs i s (operandsMissing s i.opcode i.arg i.sourceTag m (some x))) ∧
  (s.stack = [] → Runs i s (operandsMissing s i.opcode i.arg i.sourceTag m none))

/-- The state in which DIV or MOD faults on the divisor 0, at its third row, `m`, after both pops and with no ALU result
or flag written (43_arithmetic.md R274, R275). -/
def divisorZero (s : State) (o : Opcode) (arg : OptWord) (tag : Option SourceTag) (m : Nat) (S : List Int) (x : Int) :
    State :=
  { inRow s o arg tag m with
    br        := some x
    tos       := some x
    aluA      := some x
    aluB      := some 0
    stack     := S
    tickCount := s.tickCount + 2
    status    := .fault .divisionByZero }

/-- One row of a rule's corner cases: operation `k` on `x` and `y` writes `res` and the three flags. -/
abbrev AluGives (k : AluOp) (x y res : Int) (n z v : Bool) : Prop :=
  wrap (exactResult k x y) = res ∧ negative (exactResult k x y) = n ∧ zero (exactResult k x y) = z ∧
    overflow (exactResult k x y) = v

/-- The nine opcodes that execute an ALU_OP (10_state.md R41). -/
def aluOpcodes : List Opcode := [.sum, .sub, .mul, .div, .mod, .eq, .notEq, .more, .less]

/-- A running state within the bound of the stack: what every state of a run that still steps is (10_state.md R47, R57). -/
abbrev Ready (s : State) : Prop := s.status = .running ∧ s.stack.length ≤ stackDepth

/-- A state about to fetch, below the ceiling: running, at an instruction boundary (42_control_unit.md R243). -/
abbrev AboutToFetch (s : State) : Prop :=
  s.status = .running ∧ s.mpc = 0 ∧ s.instrCount < s.params.instrLimit

/-- The value of a list of digit codes, read most significant first. -/
def digitsValue (codes : List Nat) : Nat := codes.foldl (fun acc c => acc * 10 + (c - 48)) 0

/-- The ticks of a completed instruction, the two fetch rows included (42_control_unit.md R248). -/
def ticks : Opcode → Nat
  | .sum | .sub | .mul | .div | .mod | .eq | .notEq | .more | .less => 6
  | .dup => 5
  | .drop => 3
  | .swap => 7
  | .push => 4
  | .addrOnTop => 4
  | .saveVar => 7
  | .varOnTop => 6
  | .jzs => 4
  | .jmp => 4
  | .halt => 2
  | .print => 4
  | .read => 4
  | .emit => 4

/-- The machine whose step is one row, the spec's own step (00_scope.md R15). -/
abbrev rowMachine : Host.Core :=
  { State := State, Fault := Fault, Refusal := Refusal, step := Machine.rowStep, reset := State.reset }

/-- The number of signals of a row that end it: one of MPC_NEXT, MPC_ZERO, MPC_OPCODE, HALT (42_control_unit.md R245). -/
def endsRow (g : Signal) : Bool := decide (g ∈ [Signal.mpcNext, .mpcZero, .mpcOpcode, .halt])

/-- The state after signals applied one after another (42_control_unit.md R234). -/
def afterSignals (row : Row) (s : State) : State := row.foldl (fun u g => execSignal g u) s

/-- The rows of an opcode's microsequence: from its first row, `n` of them. -/
def rowsOf (o : Opcode) (n : Nat) : List Row := (table.drop (firstRow o)).take n

/-- Each opcode with the number of its rows (42_control_unit.md R241). -/
def rowCounts : List (Opcode × Nat) :=
  [(.sum, 4), (.sub, 4), (.mul, 4), (.div, 4), (.mod, 4), (.eq, 4), (.notEq, 4), (.more, 4), (.less, 4), (.dup, 3),
   (.drop, 1), (.swap, 5), (.push, 2), (.addrOnTop, 2), (.saveVar, 5), (.varOnTop, 4), (.jzs, 2), (.jmp, 2), (.halt, 1),
   (.print, 2), (.read, 2), (.emit, 2)]

/-- The table of 30_encoding.md R102: opcode, ordinal, whether its arg is required, first micro-row. -/
def opcodeTable : List (Opcode × Nat × Bool × Nat) :=
  [(.sum, 0, false, 2), (.sub, 1, false, 6), (.mul, 2, false, 10), (.div, 3, false, 14),
   (.mod, 4, false, 18), (.eq, 5, false, 22), (.notEq, 6, false, 26), (.more, 7, false, 30),
   (.less, 8, false, 34), (.dup, 9, false, 38), (.drop, 10, false, 41), (.swap, 11, false, 42),
   (.push, 12, true, 47), (.addrOnTop, 13, true, 49), (.saveVar, 14, false, 51), (.varOnTop, 15, false, 56),
   (.jzs, 16, true, 60), (.jmp, 17, true, 62), (.halt, 18, false, 64), (.print, 19, false, 65),
   (.read, 20, false, 67), (.emit, 21, false, 69)]

end Sys2Proof.Statements

open Sys2Proof.Statements

/-- Encoding and decoding are inverse (30_encoding.md R100, R102 to R104), and the ordinals outside the 22 are refused (R107). -/
def Obligations.EncodedInstructionDecodesBack : Prop :=
  ∀ (r : Record) (i : Instr),
    (decode r = .ok i ↔ r = encode i) ∧
    ((∃ e, decode r = .error e) ↔ 22 ≤ r.opcode)

/-- The table of R102 as the decoder, the loader's check and FIRST_ROW have it, and records of each family written out as `(ordinal, arg)` (95_test_vectors.md, conventions). The two `decodeTableWord` clauses rest on no rule: R102 says the table describes no bit field, and reading its words so is the model's choice (DESIGN CHOICE, log 8). -/
def Obligations.OpcodeTableOrdinalsAndFirstRows : Prop :=
  (∀ e ∈ opcodeTable, Opcode.ofOrdinal e.2.1 = some e.1 ∧ e.1.ordinal = e.2.1 ∧ e.1.requiresArg = e.2.2.1 ∧
      firstRow e.1 = e.2.2.2) ∧
  opcodeTable.length = nOpcodes ∧
  decode ⟨0, none, none⟩ = .ok (.sum none none) ∧
  decode ⟨6, none, none⟩ = .ok (.notEq none none) ∧
  decode ⟨12, some (-7), none⟩ = .ok (.push (some (-7)) none) ∧
  decode ⟨13, some 0, none⟩ = .ok (.addrOnTop (some 0) none) ∧
  decode ⟨16, some 15, none⟩ = .ok (.jzs (some 15) none) ∧
  decode ⟨18, none, none⟩ = .ok (.halt none none) ∧
  decode ⟨21, none, none⟩ = .ok (.emit none none) ∧
  decodeTableWord 8 1 = some (.sub none none) ∧
  decodeTableWord 8 17 = some (.jmp (some 0) none)

/-- IR_DECODE's `decode` (30_encoding.md R106). -/
def Obligations.CellDecodesByItsTag : Prop :=
  (∀ i : Instr, decodeCell (.instr i) = .record (some i.opcode) i.arg i.sourceTag ∧
      Instr.ofParts i.opcode i.arg i.sourceTag = i) ∧
  (∀ w : Int, decodeCell (.word w) = .record none (some w) none)

/-- MemRead and MemWrite (20_memory.md R72), and what a read returns after a write (R78, R82). -/
def Obligations.MemoryAccessesAreCheckedAndCoherent : Prop :=
  ∀ (s : State) (a : Int) (c : Cell), s.mem.wf →
    (¬ (0 ≤ a ∧ a < s.params.memSize) →
      s.memRead a = .error .memoryOutOfRange ∧ s.memWrite a c = .error .memoryOutOfRange) ∧
    (0 ≤ a ∧ a < s.params.memSize →
      (∃ d, s.memRead a = .ok d) ∧
      ∃ t, s.memWrite a c = .ok t ∧ t = { s with mem := t.mem } ∧ t.mem.wf ∧ t.memRead a = .ok c ∧
        ∀ b, b ≠ a → t.memRead b = s.memRead b)

/-- The stack's two primitives (10_state.md R45, R46). -/
def Obligations.PushAndPopFollowTheirRules : Prop :=
  ∀ s : State,
    s.push none = .ok s ∧
    (∀ w : Int, s.stack.length = 64 → s.push (some w) = .error .stackOverflow) ∧
    (∀ w : Int, s.stack.length < 64 → s.push (some w) = .ok { s with stack := s.stack ++ [w] }) ∧
    (s.stack = [] → s.popped = none ∧ s.pop = s) ∧
    (∀ (S : List Int) (w : Int), s.stack = S ++ [w] → s.popped = some w ∧ s.pop = { s with stack := S })

/-- The overflow flag and the wrap (40_alu.md R146). -/
def Obligations.WrapIsTheAsymmetricModulo : Prop :=
  ∀ r : Int,
    (r > 2147483647 →
      overflow r = true ∧ 0 ≤ wrap r ∧ wrap r ≤ 2147483646 ∧ ∃ q, r = 2147483647 * q + wrap r) ∧
    (r < -2147483648 →
      overflow r = true ∧ 0 ≤ wrap r ∧ wrap r ≤ 2147483647 ∧ ∃ q, r = 2147483648 * q + wrap r) ∧
    (-2147483648 ≤ r ∧ r ≤ 2147483647 → overflow r = false ∧ wrap r = r) ∧
    IsWord (wrap r)

/-- Floor division and floor modulo (40_alu.md R143). -/
def Obligations.DivisionFloorsAndModuloFollowsDivisor : Prop :=
  ∀ a b : Int,
    (b > 0 → exactResult .div a b * b ≤ a ∧ ∀ q, q * b ≤ a → q ≤ exactResult .div a b) ∧
    (b < 0 → exactResult .div a b * b ≥ a ∧ ∀ q, q * b ≥ a → q ≤ exactResult .div a b) ∧
    (b ≠ 0 →
      exactResult .mod a b = a - b * exactResult .div a b ∧
      (exactResult .mod a b = 0 ∨ (exactResult .mod a b < 0 ∧ b < 0) ∨ (exactResult .mod a b > 0 ∧ b > 0)) ∧
      |exactResult .mod a b| < |b|)

/-- `alu_op(k)` (40_alu.md R147) and the source's property of it (R149). -/
def Obligations.AluOperationWritesResultAndFlags : Prop :=
  ∀ (s : State) (k : AluOp), s.status = .running →
    (s.aluA = none ∨ s.aluB = none → execSignal (.aluOp k) s = { s with status := .fault .operandAbsent }) ∧
    (∀ a b : Int, s.aluA = some a → s.aluB = some b →
      ((k = .div ∨ k = .mod) ∧ b = 0 → execSignal (.aluOp k) s = { s with status := .fault .divisionByZero }) ∧
      (¬ ((k = .div ∨ k = .mod) ∧ b = 0) →
        execSignal (.aluOp k) s =
          { s with
            aluRes := wrap (exactResult k a b)
            flagN  := decide (exactResult k a b < 0)
            flagZ  := decide (exactResult k a b = 0)
            flagV  := decide (exactResult k a b > wordMax ∨ exactResult k a b < wordMin) } ∧
        IsWord (wrap (exactResult k a b))))

/-- `decimal(w)` (48_io.md R374). -/
def Obligations.DecimalIsTheShortestNumeral : Prop :=
  decimal 0 = [48] ∧
  (∀ w : Int, w < 0 → decimal w = 45 :: decimal (-w)) ∧
  (∀ n : Nat, (∀ c ∈ decimal n, 48 ≤ c ∧ c ≤ 57) ∧ digitsValue (decimal n) = n ∧
    (n ≠ 0 → (decimal n).head? ≠ some 48))

/-- Precision of a fault (41_datapath_signals.md R194), and what a row does at it (60_exceptions.md R400, R423). -/
def Obligations.FaultingSignalChangesOnlyStatus : Prop :=
  ∀ (g : Signal) (s : State) (k : FaultKind), s.status = .running → (execSignal g s).status = .fault k →
    execSignal g s = { s with status := .fault k } ∧
    ∀ (before after : Row) (s₀ : State),
      (∀ n ≤ before.length, (afterSignals (before.take n) s₀).status = .running) → afterSignals before s₀ = s →
      runSignals (before ++ g :: after) s₀ = { s with status := .fault k }

/-- Rows with no micro-address signal (42_control_unit.md R246), on a table given as an argument. -/
def Obligations.RowWithoutMicroAddressSignalKeepsMpc : Prop :=
  ∀ (tbl : List Row) (row : Row) (s : State), s.status = .running → (∀ g ∈ row, endsRow g = false) →
    tbl[s.mpc]? = some row →
    (stepRowIn tbl s).mpc = s.mpc ∧ tbl[(stepRowIn tbl s).mpc]? = some row

/-- The properties (a) to (g) of 42_control_unit.md R245, with R241's row count. -/
def Obligations.MicrocodeTableIsWellBuilt : Prop :=
  table.length = 71 ∧
  (∀ row ∈ table, row.map endsRow = List.replicate (row.length - 1) false ++ [true]) ∧
  (table.take 2 ++ rowCounts.flatMap (fun e => rowsOf e.1 e.2) = table) ∧
  (∀ e ∈ rowCounts, (rowsOf e.1 e.2).map (·.getLast?) =
    List.replicate (e.2 - 1) (some .mpcNext) ++ [some (if e.1 = .halt then .halt else .mpcZero)]) ∧
  (∀ m < 71, Signal.mpcOpcode ∈ table.getD m [] ↔ m = 1) ∧
  (∀ row ∈ table, Signal.invalid ∉ row) ∧
  (∀ row ∈ table, Signal.pcInc ∈ row → Signal.jump ∉ row ∧ Signal.jumpIfZ ∉ row) ∧
  (∀ e ∈ rowCounts, (rowsOf e.1 e.2).flatten.count .pcInc = if e.1 = .jmp ∨ e.1 = .halt then 0 else 1) ∧
  ((rowsOf .jzs 2).flatten.idxOf .pcInc < (rowsOf .jzs 2).flatten.idxOf .jumpIfZ)

/-- The source's negative test (95_test_vectors.md E7; 42_control_unit.md R237). -/
def Obligations.InvalidSignalEndsTheRun : Prop :=
  (∀ s : State, s.status = .running → s.mpc = 0 →
    stepRowIn [[.invalid]] s = { s with status := .fault .invalidSignal } ∧
    stepRowIn [[.arFromPc, .invalid, .memRead]] s = { s with ar := s.pc, status := .fault .invalidSignal }) ∧
  (∀ g : Signal, g.category = none ↔ g = .invalid)

/-- The common property of the datapath signals (41_datapath_signals.md R195); the control unit's own signals are those of the last two categories and INVALID. -/
def Obligations.DatapathSignalsLeaveFlagsAndSequencer : Prop :=
  ∀ (g : Signal) (s : State), g.category ≠ some .microcodeAddress → g.category ≠ some .halt → g.category ≠ none →
    ((∀ k, g ≠ .aluOp k) → (execSignal g s).flagN = s.flagN ∧ (execSignal g s).flagZ = s.flagZ ∧
      (execSignal g s).flagV = s.flagV) ∧
    (execSignal g s).mpc = s.mpc ∧ (execSignal g s).instrCount = s.instrCount ∧
    (execSignal g s).tickCount = s.tickCount ∧
    ((execSignal g s).status = s.status ∨
      ∃ k, signalEffect g s = .error k ∧ (execSignal g s).status = .fault k)

/-- The loader checks (30_encoding.md R108); the premise on MEM_SIZE is the parameter's own bound (00_scope.md R9). -/
def Obligations.LoaderAcceptsExactlyTheCheckedLists : Prop :=
  ∀ (p : Params) (records : List Record) (input : List Nat), (p.memSize : Int) ≤ 2147483647 →
    ((∃ s, load p records input = .ok s) ↔
      1 ≤ records.length ∧
      (∀ r ∈ records, r.opcode < 22) ∧
      (∃ r, records.getLast? = some r ∧ r.opcode = 18) ∧
      (∀ r ∈ records, r.opcode = 12 ∨ r.opcode = 13 ∨ r.opcode = 16 ∨ r.opcode = 17 → r.arg ≠ none) ∧
      (∀ r ∈ records, ∀ w, r.arg = some w → IsWord w) ∧
      records.length + 1 ≤ p.memSize ∧
      (∀ c ∈ input, c ≤ p.charCodeMax))

/-- The initial state (70_reset_and_hazards.md R452, R453; 10_state.md R60). -/
def Obligations.LoadedRunStartsAtReset : Prop :=
  ∀ (p : Params) (records : List Record) (input : List Nat) (s : State), load p records input = .ok s →
    ∃ prog : List Instr, records = prog.map encode ∧
      s.memRead 0 = .ok (.word (prog.length + 1)) ∧
      (∀ (j : Nat) (i : Instr), prog[j]? = some i → s.memRead (j + 1 : Nat) = .ok (.instr i)) ∧
      (∀ j : Nat, prog.length + 1 ≤ j → j < p.memSize → s.memRead j = .ok (.word 0)) ∧
      s = { pc := 1, ar := 0, ir := .empty, br := some 0, tos := some 0, aluA := some 0, aluB := some 0, aluRes := 0,
            flagN := false, flagZ := false, flagV := false, stack := [], mem := s.mem, latch := .word 0, input := input,
            output := [], mpc := 0, instrCount := 0, tickCount := 0, status := .running, params := p }

/-- The loader's checks make every value of the initial state a Word (90_conflicts.md C12). The range of CHAR_CODE_MAX is the model's (log 13). -/
def Obligations.LoadedStateMeetsBothInvariants : Prop :=
  ∀ (p : Params) (records : List Record) (input : List Nat) (s : State), p.wf → load p records input = .ok s →
    s.Inv ∧ s.RowInv

/-- Reset (10_state.md R60). The memory, input queue and parameters before a load are the model's choice (logs 4 and 5). -/
def Obligations.ResetStateMeetsInvariant : Prop :=
  State.reset.Inv ∧ State.reset.RowInv ∧
  State.reset.pc = 1 ∧ State.reset.ar = 0 ∧ State.reset.ir = .empty ∧ State.reset.br = some 0 ∧
  State.reset.tos = some 0 ∧ State.reset.aluA = some 0 ∧ State.reset.aluB = some 0 ∧ State.reset.aluRes = 0 ∧
  State.reset.flagN = false ∧ State.reset.flagZ = false ∧ State.reset.flagV = false ∧ State.reset.stack = [] ∧
  State.reset.output = [] ∧ State.reset.latch = .word 0 ∧ State.reset.mpc = 0 ∧ State.reset.instrCount = 0 ∧
  State.reset.tickCount = 0 ∧ State.reset.status = .running

/-- The invariants the spec's own sentences give (00_scope.md R10; 10_state.md R47, R55; 40_alu.md R149; 48_io.md R370). The range of CHAR_CODE_MAX in it is the model's (log 13). -/
def Obligations.StepKeepsInvariant : Prop :=
  ∀ s t : State, s.Inv → Machine.step s = .next t → t.Inv

/-- The same invariant for the spec's own step, one row (00_scope.md R15; 42_control_unit.md R245 (b); 92_eei_decisions.md D37). -/
def Obligations.RowStepKeepsRowInvariant : Prop :=
  ∀ s t : State, s.RowInv → Machine.rowStep s = .next t → t.RowInv

/-- The fetch sequence, rows 0 and 1 of 42_control_unit.md R241, and dispatch (R235). -/
def Obligations.StepRunsTheDecodedInstruction : Prop :=
  ∀ (s : State) (i : Instr), AboutToFetch s → 0 ≤ s.pc → s.pc < s.params.memSize → s.mem.read s.pc.toNat = .instr i →
    Machine.step s = Machine.exec i
      { s with
        ar         := s.pc
        latch      := .instr i
        ir         := .record (some i.opcode) i.arg i.sourceTag
        mpc        := firstRow i.opcode
        instrCount := s.instrCount + 1
        tickCount  := s.tickCount + 2 }

/-- A PC outside the memory faults at the fetch (20_memory.md R72; 47_control_transfer.md R350). -/
def Obligations.FetchOutsideMemoryFaults : Prop :=
  ∀ s : State, AboutToFetch s → (s.pc < 0 ∨ (s.params.memSize : Int) ≤ s.pc) →
    Machine.step s = .next { s with ar := s.pc, status := .fault .memoryOutOfRange }

/-- A fetched Word has no opcode to dispatch (20_memory.md R85; 60_exceptions.md R408). -/
def Obligations.FetchOfWordFaultsNoOpcode : Prop :=
  ∀ (s : State) (w : Int), AboutToFetch s → 0 ≤ s.pc → s.pc < s.params.memSize → s.mem.read s.pc.toNat = .word w →
    Machine.step s = .next
      { s with
        ar        := s.pc
        latch     := .word w
        ir        := .record none (some w) none
        mpc       := 1
        tickCount := s.tickCount + 1
        status    := .fault .noOpcode }

/-- The ceiling test (42_control_unit.md R242, R243). -/
def Obligations.CeilingEndsRunAtBoundary : Prop :=
  ∀ s : State, s.status = .running →
    (s.mpc = 0 → s.params.instrLimit ≤ s.instrCount →
      Machine.step s = .next { s with status := .limit } ∧ Machine.rowStep s = .next { s with status := .limit }) ∧
    (s.mpc ≠ 0 → s.mpc < nURows → Machine.rowStep s = .next (stepRow s))

/-- Only a running state steps (10_state.md R57). Answering with a named stop is the model's choice (log 3). -/
def Obligations.EndedRunTakesNoStep : Prop :=
  ∀ s : State,
    (s.status = .halted → Machine.step s = .fault .runHalted ∧ Machine.rowStep s = .fault .runHalted ∧
      ∀ i, Machine.exec i s = .fault .runHalted) ∧
    (s.status = .limit → Machine.step s = .fault .runAtLimit ∧ Machine.rowStep s = .fault .runAtLimit ∧
      ∀ i, Machine.exec i s = .fault .runAtLimit) ∧
    (∀ k, s.status = .fault k → Machine.step s = .fault (.runFaulted k) ∧ Machine.rowStep s = .fault (.runFaulted k) ∧
      ∀ i, Machine.exec i s = .fault (.runFaulted k))

/-- A step of the spec is one row (00_scope.md R15); an instruction is the rows from micro-address 0 to the row that sets MPC back to 0 or halts. The model's larger step is its choice (log 2). -/
def Obligations.StepIsRowsInSequence : Prop :=
  ∀ s : State, ∃ n, 1 ≤ n ∧ n ≤ 7 ∧ rowMachine.run n s = Machine.step s

/-- Ticks per instruction (42_control_unit.md R248). -/
def Obligations.TicksPerInstruction : Prop :=
  ∀ (s t : State) (i : Instr), AboutToFetch s → s.stack.length ≤ stackDepth → s.memRead s.pc = .ok (.instr i) →
    Machine.step s = .next t → t.status = .running ∨ t.status = .halted → t.tickCount = s.tickCount + ticks i.opcode

/-- The executed-instruction counter (42_control_unit.md R239). -/
def Obligations.InstructionCountRisesPerDispatch : Prop :=
  ∀ s t : State, AboutToFetch s → Machine.step s = .next t →
    ((∃ i, s.memRead s.pc = .ok (.instr i)) → t.instrCount = s.instrCount + 1) ∧
    ((¬ ∃ i, s.memRead s.pc = .ok (.instr i)) → t.instrCount = s.instrCount)

/-- SUM (43_arithmetic.md R271, on R270's microsequence). -/
def Obligations.SumPushesWrappedSum : Prop :=
  (∀ (arg : OptWord) (tag : Option SourceTag) (s : State), Ready s →
    (∀ (S : List Int) (y x : Int), s.stack = S ++ [y, x] →
      Runs (.sum arg tag) s (arithmeticDone s .sum arg tag S y x (x + y))) ∧
    FaultsOnShortStack (.sum arg tag) 4 s) ∧
  AluGives .add 2147483647 1 1 false false true ∧
  AluGives .add 2147483647 2147483647 0 false false true ∧
  AluGives .add (-2147483648) (-1) 2147483647 true false true ∧
  AluGives .add (-1) 1 0 false true false ∧
  AluGives .add 3 5 8 false false false

/-- SUB (43_arithmetic.md R272, on R270's microsequence). -/
def Obligations.SubPushesWrappedDifference : Prop :=
  (∀ (arg : OptWord) (tag : Option SourceTag) (s : State), Ready s →
    (∀ (S : List Int) (y x : Int), s.stack = S ++ [y, x] →
      Runs (.sub arg tag) s (arithmeticDone s .sub arg tag S y x (x - y))) ∧
    FaultsOnShortStack (.sub arg tag) 8 s) ∧
  AluGives .sub 5 5 0 false true false ∧
  AluGives .sub (-2147483648) 1 2147483647 true false true ∧
  AluGives .sub 0 (-2147483648) 1 false false true ∧
  AluGives .sub 3 5 (-2) true false false

/-- MUL (43_arithmetic.md R273, on R270's microsequence). -/
def Obligations.MulPushesWrappedProduct : Prop :=
  (∀ (arg : OptWord) (tag : Option SourceTag) (s : State), Ready s →
    (∀ (S : List Int) (y x : Int), s.stack = S ++ [y, x] →
      Runs (.mul arg tag) s (arithmeticDone s .mul arg tag S y x (x * y))) ∧
    FaultsOnShortStack (.mul arg tag) 12 s) ∧
  AluGives .mul 65536 65536 2 false false true ∧
  AluGives .mul (-65536) 65536 0 true false true ∧
  AluGives .mul 2147483647 2147483647 0 false false true ∧
  AluGives .mul (-2147483648) (-1) 1 false false true ∧
  (∀ w : Int, AluGives .mul w 0 0 false true false) ∧
  AluGives .mul 7 6 42 false false false

/-- DIV (43_arithmetic.md R274, on R270's microsequence; the quotient is R143's). -/
def Obligations.DivPushesWrappedFloorQuotient : Prop :=
  (∀ (arg : OptWord) (tag : Option SourceTag) (s : State), Ready s →
    (∀ (S : List Int) (y x : Int), s.stack = S ++ [y, x] →
      (y ≠ 0 → Runs (.div arg tag) s (arithmeticDone s .div arg tag S y x (floordiv x y))) ∧
      (y = 0 → Runs (.div arg tag) s (divisorZero s .div arg tag 16 S x))) ∧
    FaultsOnShortStack (.div arg tag) 16 s) ∧
  (∀ x y : Int, IsWord x → IsWord y → y ≠ 0 →
    (overflow (floordiv x y) = true ↔ x = -2147483648 ∧ y = -1)) ∧
  AluGives .div 7 2 3 false false false ∧
  AluGives .div (-7) 2 (-4) true false false ∧
  AluGives .div 7 (-2) (-4) true false false ∧
  AluGives .div (-7) (-2) 3 false false false ∧
  AluGives .div (-2147483648) (-1) 1 false false true ∧
  AluGives .div 0 5 0 false true false

/-- MOD (43_arithmetic.md R275, on R270's microsequence; the remainder is R143's). -/
def Obligations.ModPushesFloorRemainder : Prop :=
  (∀ (arg : OptWord) (tag : Option SourceTag) (s : State), Ready s →
    (∀ (S : List Int) (y x : Int), s.stack = S ++ [y, x] → IsWord x → IsWord y →
      (y ≠ 0 → Runs (.mod arg tag) s
        { arithmeticDone s .mod arg tag S y x (floormod x y) with
          tos    := some (floormod x y)
          aluRes := floormod x y
          stack  := S ++ [floormod x y]
          flagZ  := decide (y ∣ x)
          flagV  := false }) ∧
      (floormod x y < 0 → y < 0 ∨ y = 0) ∧
      (y = 0 → Runs (.mod arg tag) s (divisorZero s .mod arg tag 20 S x))) ∧
    FaultsOnShortStack (.mod arg tag) 20 s) ∧
  AluGives .mod 7 2 1 false false false ∧
  AluGives .mod (-7) 2 1 false false false ∧
  AluGives .mod 7 (-2) (-1) true false false ∧
  AluGives .mod (-7) (-2) (-1) true false false ∧
  AluGives .mod (-2147483648) (-1) 0 false true false ∧
  AluGives .mod 5 5 0 false true false

/-- EQ (44_comparison.md R291, R290). -/
def Obligations.EqPushesEquality : Prop :=
  (∀ (arg : OptWord) (tag : Option SourceTag) (s : State), Ready s →
    (∀ (S : List Int) (y x : Int), s.stack = S ++ [y, x] →
      Runs (.eq arg tag) s (comparisonDone s .eq arg tag S y x (decide (x = y)))) ∧
    FaultsOnShortStack (.eq arg tag) 24 s) ∧
  AluGives .eq (-2147483648) (-2147483648) 1 false false false ∧
  AluGives .eq 0 0 1 false false false ∧
  AluGives .eq 3 3 1 false false false ∧
  AluGives .eq 2 1 0 false true false

/-- NOT_EQ (44_comparison.md R292, R290). -/
def Obligations.NotEqPushesInequality : Prop :=
  (∀ (arg : OptWord) (tag : Option SourceTag) (s : State), Ready s →
    (∀ (S : List Int) (y x : Int), s.stack = S ++ [y, x] →
      Runs (.notEq arg tag) s (comparisonDone s .notEq arg tag S y x (decide (x ≠ y)))) ∧
    FaultsOnShortStack (.notEq arg tag) 28 s) ∧
  AluGives .ne 4 3 1 false false false ∧
  AluGives .ne 3 3 0 false true false

/-- MORE (44_comparison.md R293, R290). -/
def Obligations.MorePushesTopGreater : Prop :=
  (∀ (arg : OptWord) (tag : Option SourceTag) (s : State), Ready s →
    (∀ (S : List Int) (y x : Int), s.stack = S ++ [y, x] →
      Runs (.more arg tag) s (comparisonDone s .more arg tag S y x (decide (x > y)))) ∧
    FaultsOnShortStack (.more arg tag) 32 s) ∧
  AluGives .gt 4 4 0 false true false ∧
  AluGives .gt 2147483647 (-2147483648) 1 false false false ∧
  AluGives .gt 3 5 0 false true false ∧
  AluGives .gt 5 3 1 false false false

/-- LESS (44_comparison.md R294, R290). -/
def Obligations.LessPushesTopSmaller : Prop :=
  (∀ (arg : OptWord) (tag : Option SourceTag) (s : State), Ready s →
    (∀ (S : List Int) (y x : Int), s.stack = S ++ [y, x] →
      Runs (.less arg tag) s (comparisonDone s .less arg tag S y x (decide (x < y)))) ∧
    FaultsOnShortStack (.less arg tag) 36 s) ∧
  AluGives .lt 4 4 0 false true false ∧
  AluGives .lt (-2147483648) 2147483647 1 false false false ∧
  AluGives .lt 3 5 1 false false false

/-- DUP (45_stack.md R310). -/
def Obligations.DupCopiesTop : Prop :=
  ∀ (arg : OptWord) (tag : Option SourceTag) (s : State), Ready s →
    (∀ (S : List Int) (x : Int), s.stack = S ++ [x] →
      (s.stack.length < 64 → Runs (.dup arg tag) s
        { inRow s .dup arg tag 0 with
          br := some x, tos := some x, stack := S ++ [x, x], pc := s.pc + 1, tickCount := s.tickCount + 3 }) ∧
      (s.stack.length = 64 → Runs (.dup arg tag) s
        { inRow s .dup arg tag 40 with
          br := some x, tos := some x, tickCount := s.tickCount + 2, status := .fault .stackOverflow })) ∧
    (s.stack = [] → Runs (.dup arg tag) s
      { inRow s .dup arg tag 0 with br := none, tos := none, pc := s.pc + 1, tickCount := s.tickCount + 3 })

/-- DROP (45_stack.md R311). -/
def Obligations.DropRemovesTop : Prop :=
  ∀ (arg : OptWord) (tag : Option SourceTag) (s : State), s.status = .running →
    (∀ (S : List Int) (x : Int), s.stack = S ++ [x] → Runs (.drop arg tag) s
      { inRow s .drop arg tag 0 with stack := S, pc := s.pc + 1, tickCount := s.tickCount + 1 }) ∧
    (s.stack = [] → Runs (.drop arg tag) s
      { inRow s .drop arg tag 0 with pc := s.pc + 1, tickCount := s.tickCount + 1 })

/-- SWAP (45_stack.md R312). -/
def Obligations.SwapExchangesTopTwo : Prop :=
  ∀ (arg : OptWord) (tag : Option SourceTag) (s : State), Ready s →
    (∀ (S : List Int) (y x : Int), s.stack = S ++ [y, x] → Runs (.swap arg tag) s
      { inRow s .swap arg tag 0 with
        br := some y, tos := some y, stack := S ++ [x, y], pc := s.pc + 1, tickCount := s.tickCount + 5 }) ∧
    (∀ x : Int, s.stack = [x] ∨ s.stack = [] → Runs (.swap arg tag) s
      { inRow s .swap arg tag 0 with br := none, tos := none, pc := s.pc + 1, tickCount := s.tickCount + 5 })

/-- PUSH (45_stack.md R313). -/
def Obligations.PushAppendsArgument : Prop :=
  ∀ (v : Int) (tag : Option SourceTag) (s : State), Ready s →
    (s.stack.length < 64 → Runs (.push (some v) tag) s
      { inRow s .push (some v) tag 0 with
        tos := some v, stack := s.stack ++ [v], pc := s.pc + 1, tickCount := s.tickCount + 2 }) ∧
    (s.stack.length = 64 → Runs (.push (some v) tag) s
      { inRow s .push (some v) tag 48 with
        tos := some v, tickCount := s.tickCount + 1, status := .fault .stackOverflow })

/-- ADDR_ON_TOP (46_memory_ops.md R330). -/
def Obligations.AddrOnTopPushesVariableAddress : Prop :=
  ∀ (i : Int) (tag : Option SourceTag) (s : State), Ready s → 0 < s.params.memSize →
    (∀ base : Int, s.mem.read 0 = .word base →
      (IsWord (i + base) → s.stack.length < 64 → Runs (.addrOnTop (some i) tag) s
        { inRow s .addrOnTop (some i) tag 0 with
          tos := some (i + base), stack := s.stack ++ [i + base], pc := s.pc + 1, tickCount := s.tickCount + 2 }) ∧
      (IsWord (i + base) → s.stack.length = 64 → Runs (.addrOnTop (some i) tag) s
        { inRow s .addrOnTop (some i) tag 50 with
          tos := some (i + base), tickCount := s.tickCount + 1, status := .fault .stackOverflow }) ∧
      (¬ IsWord (i + base) → Runs (.addrOnTop (some i) tag) s
        { inRow s .addrOnTop (some i) tag 49 with status := .fault .valueOutOfRange })) ∧
    (∀ j : Instr, s.mem.read 0 = .instr j → Runs (.addrOnTop (some i) tag) s
      { inRow s .addrOnTop (some i) tag 49 with status := .fault .notAWord })

/-- SAVE_VAR (46_memory_ops.md R331). -/
def Obligations.SaveVarStoresBelowTopAtTop : Prop :=
  ∀ (arg : OptWord) (tag : Option SourceTag) (s : State), Ready s → s.mem.wf →
    (∀ (S : List Int) (y x : Int), s.stack = S ++ [y, x] →
      (0 ≤ x ∧ x < s.params.memSize → ∃ m : Memory,
        Runs (.saveVar arg tag) s
          { inRow s .saveVar arg tag 0 with
            br := some y, tos := some y, ar := x, latch := .word y, stack := S, mem := m, pc := s.pc + 1,
            tickCount := s.tickCount + 5 } ∧
        m.wf ∧ ∀ a : Nat, m.read a = if (a : Int) = x then .word y else s.mem.read a) ∧
      (¬ (0 ≤ x ∧ x < s.params.memSize) → Runs (.saveVar arg tag) s
        { inRow s .saveVar arg tag 55 with
          br := some y, tos := some y, ar := x, latch := .word y, stack := S, tickCount := s.tickCount + 4,
          status := .fault .memoryOutOfRange })) ∧
    (∀ x : Int, s.stack = [x] → Runs (.saveVar arg tag) s
      { inRow s .saveVar arg tag 54 with
        br := none, tos := none, ar := x, stack := [], tickCount := s.tickCount + 3, status := .fault .operandAbsent }) ∧
    (s.stack = [] → Runs (.saveVar arg tag) s
      { inRow s .saveVar arg tag 52 with
        br := none, tos := none, tickCount := s.tickCount + 1, status := .fault .operandAbsent })

/-- VAR_ON_TOP (46_memory_ops.md R332); the round trip of R332 is SaveVarThenVarOnTopRoundTrips. -/
def Obligations.VarOnTopLoadsAddressedWord : Prop :=
  ∀ (arg : OptWord) (tag : Option SourceTag) (s : State), Ready s →
    (∀ (S : List Int) (x : Int), s.stack = S ++ [x] →
      (0 ≤ x ∧ x < s.params.memSize →
        (∀ w : Int, s.mem.read x.toNat = .word w → Runs (.varOnTop arg tag) s
          { inRow s .varOnTop arg tag 0 with
            br := some x, ar := x, tos := some w, stack := S ++ [w], pc := s.pc + 1, tickCount := s.tickCount + 4 }) ∧
        (∀ j : Instr, s.mem.read x.toNat = .instr j → Runs (.varOnTop arg tag) s
          { inRow s .varOnTop arg tag 58 with
            br := some x, tos := some x, ar := x, stack := S, tickCount := s.tickCount + 2, status := .fault .notAWord })) ∧
      (¬ (0 ≤ x ∧ x < s.params.memSize) → Runs (.varOnTop arg tag) s
        { inRow s .varOnTop arg tag 58 with
          br := some x, tos := some x, ar := x, stack := S, tickCount := s.tickCount + 2,
          status := .fault .memoryOutOfRange })) ∧
    (s.stack = [] → Runs (.varOnTop arg tag) s
      { inRow s .varOnTop arg tag 57 with
        br := none, tos := none, tickCount := s.tickCount + 1, status := .fault .operandAbsent })

/-- JZS (47_control_transfer.md R351). -/
def Obligations.JzsJumpsIffZeroFlag : Prop :=
  ∀ (t : Int) (tag : Option SourceTag) (s : State), s.status = .running →
    Runs (.jzs (some t) tag) s
      { inRow s .jzs (some t) tag 0 with
        tos := some t, pc := if s.flagZ = true then t else s.pc + 1, tickCount := s.tickCount + 2 }

/-- JMP (47_control_transfer.md R352). -/
def Obligations.JmpSetsPc : Prop :=
  ∀ (t : Int) (tag : Option SourceTag) (s : State), s.status = .running →
    Runs (.jmp (some t) tag) s
      { inRow s .jmp (some t) tag 0 with tos := some t, pc := t, tickCount := s.tickCount + 2 }

/-- HALT (47_control_transfer.md R353). -/
def Obligations.HaltEndsRunInPlace : Prop :=
  (∀ (arg : OptWord) (tag : Option SourceTag) (s : State), s.status = .running →
    Runs (.halt arg tag) s { inRow s .halt arg tag 64 with status := .halted }) ∧
  (∀ (arg : OptWord) (tag : Option SourceTag) (s : State), AboutToFetch s →
    s.memRead s.pc = .ok (.instr (.halt arg tag)) →
    Machine.step s = .next
      { inRow s .halt arg tag 64 with
        ar := s.pc, latch := .instr (.halt arg tag), instrCount := s.instrCount + 1, tickCount := s.tickCount + 2,
        status := .halted })

/-- PRINT (48_io.md R371; decimal is R374's). -/
def Obligations.PrintAppendsDecimal : Prop :=
  (∀ (arg : OptWord) (tag : Option SourceTag) (s : State), s.status = .running →
    (∀ (S : List Int) (x : Int), s.stack = S ++ [x] → Runs (.print arg tag) s
      { inRow s .print arg tag 0 with
        br := some x, tos := some x, stack := S, output := s.output ++ decimal x, pc := s.pc + 1,
        tickCount := s.tickCount + 2 }) ∧
    (s.stack = [] → Runs (.print arg tag) s
      { inRow s .print arg tag 66 with
        br := none, tos := none, tickCount := s.tickCount + 1, status := .fault .operandAbsent })) ∧
  decimal (-2147483648) = [45, 50, 49, 52, 55, 52, 56, 51, 54, 52, 56] ∧
  decimal 1 ++ decimal 2 = [49, 50] ∧ decimal 8 = [56]

/-- READ (48_io.md R372; 60_exceptions.md R411). -/
def Obligations.ReadPushesFrontCode : Prop :=
  ∀ (arg : OptWord) (tag : Option SourceTag) (s : State), Ready s →
    (∀ (c : Nat) (rest : List Nat), s.input = c :: rest →
      (s.stack.length < 64 → Runs (.read arg tag) s
        { inRow s .read arg tag 0 with
          tos := some (c : Int), input := rest, stack := s.stack ++ [(c : Int)], pc := s.pc + 1,
          tickCount := s.tickCount + 2 }) ∧
      (s.stack.length = 64 → Runs (.read arg tag) s
        { inRow s .read arg tag 68 with
          tos := some (c : Int), input := rest, tickCount := s.tickCount + 1, status := .fault .stackOverflow })) ∧
    (s.input = [] →
      (s.stack.length < 64 → Runs (.read arg tag) s
        { inRow s .read arg tag 0 with
          tos := some 0, stack := s.stack ++ [0], pc := s.pc + 1, tickCount := s.tickCount + 2 }) ∧
      (s.stack.length = 64 → Runs (.read arg tag) s
        { inRow s .read arg tag 68 with
          tos := some 0, tickCount := s.tickCount + 1, status := .fault .stackOverflow }))

/-- EMIT (48_io.md R373). -/
def Obligations.EmitAppendsCode : Prop :=
  ∀ (arg : OptWord) (tag : Option SourceTag) (s : State), s.status = .running →
    (∀ (S : List Int) (x : Int), s.stack = S ++ [x] →
      (0 ≤ x ∧ x ≤ s.params.charCodeMax → Runs (.emit arg tag) s
        { inRow s .emit arg tag 0 with
          br := some x, tos := some x, stack := S, output := s.output ++ [x.toNat], pc := s.pc + 1,
          tickCount := s.tickCount + 2 }) ∧
      (x < 0 ∨ x > s.params.charCodeMax → Runs (.emit arg tag) s
        { inRow s .emit arg tag 70 with
          br := some x, tos := some x, stack := S, tickCount := s.tickCount + 1, status := .fault .badCharCode })) ∧
    (s.stack = [] → Runs (.emit arg tag) s
      { inRow s .emit arg tag 70 with
        br := none, tos := none, tickCount := s.tickCount + 1, status := .fault .operandAbsent })

/-- The forms the loader refuses, total for a model that takes records as arguments (92_eei_decisions.md D41). -/
def Obligations.MissingRequiredArgumentIsAbsent : Prop :=
  ∀ (tag : Option SourceTag) (s : State), s.status = .running →
    Runs (.push none tag) s
      { inRow s .push none tag 0 with tos := none, pc := s.pc + 1, tickCount := s.tickCount + 2 } ∧
    Runs (.addrOnTop none tag) s { inRow s .addrOnTop none tag 49 with status := .fault .operandAbsent } ∧
    (s.flagZ = false → Runs (.jzs none tag) s
      { inRow s .jzs none tag 0 with tos := none, pc := s.pc + 1, tickCount := s.tickCount + 2 }) ∧
    (s.flagZ = true → Runs (.jzs none tag) s
      { inRow s .jzs none tag 61 with
        tos := none, pc := s.pc + 1, tickCount := s.tickCount + 1, status := .fault .operandAbsent }) ∧
    Runs (.jmp none tag) s
      { inRow s .jmp none tag 63 with tos := none, tickCount := s.tickCount + 1, status := .fault .operandAbsent }

/-- Frame of 43_arithmetic.md and 44_comparison.md (10_state.md R59). They also write BR, TOS, ALU_A and ALU_B (R270). -/
def Obligations.ArithmeticAndComparisonFrame : Prop :=
  ∀ (i : Instr) (s t : State), i.opcode ∈ aluOpcodes → Machine.exec i s = .next t →
    t.ar = s.ar ∧ t.latch = s.latch ∧ t.input = s.input ∧ t.output = s.output ∧ t.instrCount = s.instrCount ∧
    t.params = s.params ∧ t.ir = .record (some i.opcode) i.arg i.sourceTag ∧
    (∀ a : Nat, t.mem.read a = s.mem.read a) ∧
    (s.stack.dropLast.dropLast <+: t.stack) ∧
    (s.stack.length ≤ stackDepth → t.status ≠ .running →
      t.aluRes = s.aluRes ∧ t.flagN = s.flagN ∧ t.flagZ = s.flagZ ∧ t.flagV = s.flagV ∧ t.pc = s.pc)

/-- Frame of 45_stack.md (10_state.md R59). DUP and SWAP also write BR and TOS, PUSH writes TOS. -/
def Obligations.StackInstructionsFrame : Prop :=
  ∀ (i : Instr) (s t : State), i.opcode ∈ [Opcode.dup, .drop, .swap, .push] → Machine.exec i s = .next t →
    t.ar = s.ar ∧ t.aluA = s.aluA ∧ t.aluB = s.aluB ∧ t.aluRes = s.aluRes ∧ t.flagN = s.flagN ∧ t.flagZ = s.flagZ ∧
    t.flagV = s.flagV ∧ t.latch = s.latch ∧ t.input = s.input ∧ t.output = s.output ∧ t.instrCount = s.instrCount ∧
    t.params = s.params ∧ t.ir = .record (some i.opcode) i.arg i.sourceTag ∧
    (∀ a : Nat, t.mem.read a = s.mem.read a) ∧
    (i.opcode = .drop → t.br = s.br ∧ t.tos = s.tos) ∧
    (i.opcode = .push → t.br = s.br ∧ s.stack <+: t.stack)

/-- Frame of 46_memory_ops.md (10_state.md R59; 20_memory.md R78). SAVE_VAR also writes AR, BR, TOS and LATCH, VAR_ON_TOP AR, BR and TOS, ADDR_ON_TOP TOS. -/
def Obligations.MemoryInstructionsFrame : Prop :=
  ∀ (i : Instr) (s t : State), i.opcode ∈ [Opcode.addrOnTop, .saveVar, .varOnTop] → Machine.exec i s = .next t →
    t.aluA = s.aluA ∧ t.aluB = s.aluB ∧ t.aluRes = s.aluRes ∧ t.flagN = s.flagN ∧ t.flagZ = s.flagZ ∧
    t.flagV = s.flagV ∧ t.input = s.input ∧ t.output = s.output ∧ t.instrCount = s.instrCount ∧ t.params = s.params ∧
    t.ir = .record (some i.opcode) i.arg i.sourceTag ∧
    (i.opcode = .addrOnTop → t.ar = s.ar ∧ t.br = s.br) ∧
    (i.opcode ≠ .saveVar → t.latch = s.latch ∧ ∀ a : Nat, t.mem.read a = s.mem.read a) ∧
    (i.opcode = .saveVar → ∀ a : Nat, s.popped ≠ some (a : Int) → t.mem.read a = s.mem.read a)

/-- Frame of 47_control_transfer.md (10_state.md R59). JZS and JMP also write TOS. -/
def Obligations.ControlInstructionsFrame : Prop :=
  ∀ (i : Instr) (s t : State), i.opcode ∈ [Opcode.jzs, .jmp, .halt] → Machine.exec i s = .next t →
    t.ar = s.ar ∧ t.br = s.br ∧ t.aluA = s.aluA ∧ t.aluB = s.aluB ∧ t.aluRes = s.aluRes ∧ t.flagN = s.flagN ∧
    t.flagZ = s.flagZ ∧ t.flagV = s.flagV ∧ t.stack = s.stack ∧ t.latch = s.latch ∧ t.input = s.input ∧
    t.output = s.output ∧ t.instrCount = s.instrCount ∧ t.params = s.params ∧
    t.ir = .record (some i.opcode) i.arg i.sourceTag ∧
    (∀ a : Nat, t.mem.read a = s.mem.read a) ∧
    (i.opcode = .halt → t.tos = s.tos ∧ t.pc = s.pc ∧ t.tickCount = s.tickCount)

/-- Frame of 48_io.md (10_state.md R59). PRINT and EMIT also write BR and TOS, READ writes TOS. -/
def Obligations.InputOutputInstructionsFrame : Prop :=
  ∀ (i : Instr) (s t : State), i.opcode ∈ [Opcode.print, .read, .emit] → Machine.exec i s = .next t →
    t.ar = s.ar ∧ t.aluA = s.aluA ∧ t.aluB = s.aluB ∧ t.aluRes = s.aluRes ∧ t.flagN = s.flagN ∧ t.flagZ = s.flagZ ∧
    t.flagV = s.flagV ∧ t.latch = s.latch ∧ t.instrCount = s.instrCount ∧ t.params = s.params ∧
    t.ir = .record (some i.opcode) i.arg i.sourceTag ∧
    (∀ a : Nat, t.mem.read a = s.mem.read a) ∧
    (i.opcode = .read → t.br = s.br ∧ t.output = s.output ∧ s.stack <+: t.stack) ∧
    (i.opcode ≠ .read → t.input = s.input ∧ t.stack = s.stack.dropLast)

/-- Flags keep their values until the next ALU_OP (10_state.md R41; 70_reset_and_hazards.md R461). -/
def Obligations.FlagsPersistBetweenAluInstructions : Prop :=
  ∀ s t : State, s.mpc = 0 → (∀ i, s.memRead s.pc = .ok (.instr i) → i.opcode ∉ aluOpcodes) → Machine.step s = .next t →
    t.flagN = s.flagN ∧ t.flagZ = s.flagZ ∧ t.flagV = s.flagV ∧ t.aluA = s.aluA ∧ t.aluB = s.aluB ∧ t.aluRes = s.aluRes

/-- A program can write only Words (20_memory.md R79). -/
def Obligations.ProgramsNeverWriteInstructions : Prop :=
  ∀ s t : State, s.mem.wf → s.mpc = 0 → Machine.step s = .next t →
    (∀ (a : Nat) (i : Instr), t.mem.read a = .instr i → s.mem.read a = .instr i) ∧
    ((∀ i, s.memRead s.pc = .ok (.instr i) → i.opcode ≠ .saveVar) → ∀ a : Nat, t.mem.read a = s.mem.read a)

/-- The buffers (10_state.md R53, R54); the parameters are fixed data (R30), carried in the state by the model's choice (log 4). -/
def Obligations.BuffersMoveOneWayAndParametersStay : Prop :=
  ∀ s t : State, Machine.step s = .next t → s.output <+: t.output ∧ t.input <:+ s.input ∧ t.params = s.params

/-- The source's property in 46_memory_ops.md R332: SAVE_VAR followed by VAR_ON_TOP at the same address round-trips the stored Word exactly. -/
def Obligations.SaveVarThenVarOnTopRoundTrips : Prop :=
  ∀ (arg arg' : OptWord) (tag tag' : Option SourceTag) (s : State) (S : List Int) (y x : Int),
    Ready s → s.mem.wf → s.stack = S ++ [y, x] → 0 ≤ x → x < s.params.memSize →
    ∃ t u, Machine.exec (.saveVar arg tag) s = .next t ∧
      Machine.exec (.varOnTop arg' tag') { t with stack := t.stack ++ [x] } = .next u ∧
      u.status = .running ∧ u.stack = S ++ [y] ∧ u.tos = some y
end

