-- ==== Sys2Proof/Laws/Memory.lean ====
section
/-! SUPPORT. The laws of the memory: what a read gives after a write, and that every write keeps the canonical form. -/

namespace Sys2Proof.Machine

@[simp] theorem Memory.read_nil (a : Nat) : Memory.read [] a = Cell.blank := rfl

@[simp] theorem Memory.read_cons (k : Nat) (c : Cell) (m : List (Nat × Cell)) (a : Nat) :
    Memory.read ((k, c) :: m) a = if a = k then c else Memory.read m a := rfl

/-- An address that no entry lists reads as blank. -/
theorem Memory.read_unlisted {m : Memory} {a : Nat} (h : ∀ p ∈ m, p.1 ≠ a) : m.read a = Cell.blank := by
  induction m with
  | nil => rfl
  | cons p rest ih =>
    obtain ⟨k, c⟩ := p
    have hk : a ≠ k := fun e => h (k, c) (by simp) e.symm
    simpa [hk] using ih fun q hq => h q (by simp [hq])

/-- What a read gives is blank or listed at that address. -/
theorem Memory.read_blank_or_listed (m : Memory) (a : Nat) : m.read a = Cell.blank ∨ (a, m.read a) ∈ m := by
  induction m with
  | nil => exact .inl rfl
  | cons p rest ih =>
    obtain ⟨k, c⟩ := p
    by_cases hk : a = k
    · subst hk; right; simp
    · rcases ih with h | h
      · left; simp [hk, h]
      · right; simp [hk, h]

/-- Where the addresses rise, an address below the first is unlisted. -/
theorem Memory.read_below {m : Memory} {a k : Nat} (ha : a ≤ k) (h : ∀ p ∈ m, k < p.1) : m.read a = Cell.blank :=
  Memory.read_unlisted fun p hp e => by have := h p hp; omega

/-- A read of the written address gives the cell written. -/
theorem Memory.read_write_same {m : Memory} (hm : m.wf) (a : Nat) (c : Cell) : (m.write a c).read a = c := by
  obtain ⟨hs, -⟩ := hm
  induction m with
  | nil => by_cases hc : c = Cell.blank <;> simp [Memory.write, hc]
  | cons p rest ih =>
    obtain ⟨k, d⟩ := p
    obtain ⟨hk, hrest⟩ := List.pairwise_cons.mp hs
    unfold Memory.write
    split
    case isTrue h =>
      have hne : a ≠ k := Nat.ne_of_lt h
      split
      case isTrue hc => simpa [hne, hc] using Memory.read_below h.le hk
      case isFalse => simp
    case isFalse h =>
      split
      case isTrue e =>
        subst e
        split
        case isTrue hc => simpa [hc] using Memory.read_below le_rfl hk
        case isFalse => simp
      case isFalse e => simpa [e] using ih hrest

/-- A read of any other address gives what it gave before the write. -/
theorem Memory.read_write_other (m : Memory) {a b : Nat} (c : Cell) (hab : b ≠ a) :
    (m.write a c).read b = m.read b := by
  induction m with
  | nil => by_cases hc : c = Cell.blank <;> simp [Memory.write, hc, hab]
  | cons p rest ih =>
    obtain ⟨k, d⟩ := p
    unfold Memory.write
    split
    case isTrue h => split <;> simp [hab]
    case isFalse h =>
      split
      case isTrue e => subst e; split <;> simp [hab]
      case isFalse e => simp [ih]

/-- An entry after a write is the one written or stood before. -/
theorem Memory.mem_write {m : Memory} {a : Nat} {c : Cell} {p : Nat × Cell} (h : p ∈ m.write a c) :
    p = (a, c) ∨ p ∈ m := by
  induction m with
  | nil =>
    unfold Memory.write at h
    split at h <;> simp_all
  | cons q rest ih =>
    obtain ⟨k, d⟩ := q
    unfold Memory.write at h
    split at h
    case isTrue => split at h <;> simp_all
    case isFalse =>
      split at h
      case isTrue => split at h <;> simp_all; tauto
      case isFalse =>
        rcases List.mem_cons.mp h with rfl | h'
        · simp
        · rcases ih h' with e | e
          · exact .inl e
          · exact .inr (by simp [e])

/-- Writing the blank cell lists nothing new. -/
theorem Memory.mem_write_blank {m : Memory} {a : Nat} {p : Nat × Cell} (h : p ∈ m.write a Cell.blank) : p ∈ m := by
  induction m with
  | nil => simp [Memory.write] at h
  | cons q rest ih =>
    obtain ⟨k, d⟩ := q
    unfold Memory.write at h
    simp only [if_true] at h
    split at h
    case isTrue => exact h
    case isFalse =>
      split at h
      case isTrue => simp [h]
      case isFalse =>
        rcases List.mem_cons.mp h with rfl | h'
        · simp
        · simp [ih h']

/-- A write keeps the addresses rising. -/
theorem Memory.write_rising {m : Memory} (hs : m.Pairwise (fun p q => p.1 < q.1)) (a : Nat) (c : Cell) :
    (m.write a c).Pairwise (fun p q => p.1 < q.1) := by
  induction m with
  | nil => unfold Memory.write; split <;> simp
  | cons q rest ih =>
    obtain ⟨k, d⟩ := q
    obtain ⟨hk, hrest⟩ := List.pairwise_cons.mp hs
    unfold Memory.write
    split
    case isTrue h =>
      split
      case isTrue => exact hs
      case isFalse =>
        refine List.pairwise_cons.mpr ⟨fun p hp => ?_, hs⟩
        rcases List.mem_cons.mp hp with rfl | hp'
        · exact h
        · exact h.trans (hk p hp')
    case isFalse h =>
      split
      case isTrue e =>
        subst e
        split
        case isTrue => exact hrest
        case isFalse => exact List.pairwise_cons.mpr ⟨hk, hrest⟩
      case isFalse e =>
        refine List.pairwise_cons.mpr ⟨fun p hp => ?_, ih hrest⟩
        rcases Memory.mem_write hp with rfl | hp'
        · exact Nat.lt_of_le_of_ne (Nat.le_of_not_lt h) (Ne.symm e)
        · exact hk p hp'

/-- A write keeps the canonical form. -/
theorem Memory.write_wf {m : Memory} (hm : m.wf) (a : Nat) (c : Cell) : (m.write a c).wf := by
  refine ⟨Memory.write_rising hm.1 a c, fun p hp => ?_⟩
  by_cases hc : c = Cell.blank
  · exact hm.2 p (Memory.mem_write_blank (hc ▸ hp))
  · rcases Memory.mem_write hp with rfl | hp'
    · exact hc
    · exact hm.2 p hp'

/-- A listed cell is what a read of its address gives. -/
theorem Memory.read_listed {m : Memory} (hs : m.Pairwise (fun p q => p.1 < q.1)) {a : Nat} {c : Cell}
    (hmem : (a, c) ∈ m) : m.read a = c := by
  induction m with
  | nil => simp at hmem
  | cons q rest ih =>
    obtain ⟨k, d⟩ := q
    obtain ⟨hk, hrest⟩ := List.pairwise_cons.mp hs
    rcases List.mem_cons.mp hmem with e | hmem'
    · cases e; simp
    · have hak : a ≠ k := fun e => by have := hk _ hmem'; simp [e] at this
      simpa [hak] using ih hrest hmem'

/-- A canonical memory lists what another lists when their reads agree. -/
theorem Memory.listed_of_reads_eq {m n : Memory} (hm : m.wf) (h : ∀ a, m.read a = n.read a) :
    ∀ p ∈ m, p ∈ n := by
  intro p hp
  have e : n.read p.1 = p.2 := (h p.1).symm.trans (Memory.read_listed hm.1 hp)
  rcases Memory.read_blank_or_listed n p.1 with hb | hl
  · exact absurd (e.symm.trans hb) (hm.2 p hp)
  · rwa [e] at hl

/-- Equal reads everywhere make canonical memories equal. -/
theorem Memory.eq_of_reads_eq {m n : Memory} (hm : m.wf) (hn : n.wf) (h : ∀ a, m.read a = n.read a) : m = n := by
  have nd : ∀ {m : Memory}, m.wf → m.Nodup := fun hm => hm.1.imp fun hpq e => by simp [e] at hpq
  have perm : List.Perm m n :=
    (List.perm_ext_iff_of_nodup (nd hm) (nd hn)).mpr fun p =>
      ⟨Memory.listed_of_reads_eq hm h p, Memory.listed_of_reads_eq hn (fun a => (h a).symm) p⟩
  exact List.Perm.eq_of_pairwise (fun p q _ _ h1 h2 => absurd h1 (by omega)) hm.1 hn.1 perm

end Sys2Proof.Machine
end

