-- ==== Sys2Proof/Laws/Operations.lean ====
section
/-! SUPPORT. What each shared operation can answer: one lemma per operation, cited instead of unfolding it. -/

namespace Sys2Proof.Machine

@[simp] theorem ok_bind {α β : Type} (a : α) (f : α → Except FaultKind β) : (Except.ok a >>= f) = f a := rfl

@[simp] theorem error_bind {α β : Type} (k : FaultKind) (f : α → Except FaultKind β) :
    ((Except.error k : Except FaultKind α) >>= f) = .error k := rfl

/-- A sequence completes when both its parts do. -/
theorem bind_eq_ok {α β : Type} {e : Except FaultKind α} {f : α → Except FaultKind β} {b : β} :
    (e >>= f) = .ok b ↔ ∃ a, e = .ok a ∧ f a = .ok b := by
  cases e <;> simp

/-- A sequence faults in its first part, or in its second once the first is done. -/
theorem bind_eq_error {α β : Type} {e : Except FaultKind α} {f : α → Except FaultKind β} {k : FaultKind} :
    (e >>= f) = .error k ↔ e = .error k ∨ ∃ a, e = .ok a ∧ f a = .error k := by
  cases e <;> simp

@[simp] theorem need_some (w : Int) : need (some w) = .ok w := rfl

@[simp] theorem need_none : need none = .error .operandAbsent := rfl

theorem need_eq_ok {v : OptWord} {w : Int} : need v = .ok w ↔ v = some w := by
  cases v <;> simp

theorem need_eq_error {v : OptWord} {k : FaultKind} : need v = .error k ↔ v = none ∧ k = .operandAbsent := by
  cases v <;> simp [eq_comm]

@[simp] theorem cellWord_word (w : Int) : cellWord (.word w) = .ok w := rfl

@[simp] theorem cellWord_instr (i : Instr) : cellWord (.instr i) = .error .notAWord := rfl

theorem cellWord_eq_ok {c : Cell} {w : Int} : cellWord c = .ok w ↔ c = .word w := by
  cases c <;> simp

/-- A sum in the range is itself (R181). -/
theorem checkedWord_of_isWord {r : Int} (h : IsWord r) : checkedWord r = .ok r := if_pos h

/-- A sum outside the range faults (R181, R409). -/
theorem checkedWord_of_not_isWord {r : Int} (h : ¬ IsWord r) : checkedWord r = .error .valueOutOfRange := if_neg h

theorem checkedWord_eq_ok {r w : Int} : checkedWord r = .ok w ↔ IsWord r ∧ w = r := by
  by_cases h : IsWord r
  · rw [checkedWord_of_isWord h]
    exact ⟨fun e => ⟨h, by simpa using e.symm⟩, fun e => by rw [e.2]⟩
  · rw [checkedWord_of_not_isWord h]
    exact ⟨fun e => (by cases e), fun e => absurd e.1 h⟩

/-- An access inside the memory reads the cell (R72). -/
theorem memRead_of_addressable {s : State} {a : Int} (h : s.addressable a) :
    s.memRead a = .ok (s.mem.read a.toNat) := if_pos h

/-- An access outside the memory faults (R72). -/
theorem memRead_of_not_addressable {s : State} {a : Int} (h : ¬ s.addressable a) :
    s.memRead a = .error .memoryOutOfRange := if_neg h

theorem memRead_eq_ok {s : State} {a : Int} {c : Cell} :
    s.memRead a = .ok c ↔ s.addressable a ∧ s.mem.read a.toNat = c := by
  unfold State.memRead
  split
  case isTrue h => exact ⟨fun e => ⟨h, by simpa using e⟩, fun e => by rw [e.2]⟩
  case isFalse h => exact ⟨fun e => (by cases e), fun e => absurd e.1 h⟩

/-- A store inside the memory writes the cell and nothing else (R72). -/
theorem memWrite_of_addressable {s : State} {a : Int} (c : Cell) (h : s.addressable a) :
    s.memWrite a c = .ok { s with mem := s.mem.write a.toNat c } := if_pos h

/-- A store outside the memory faults (R72). -/
theorem memWrite_of_not_addressable {s : State} {a : Int} (c : Cell) (h : ¬ s.addressable a) :
    s.memWrite a c = .error .memoryOutOfRange := if_neg h

theorem memWrite_eq_ok {s t : State} {a : Int} {c : Cell} :
    s.memWrite a c = .ok t ↔ s.addressable a ∧ t = { s with mem := s.mem.write a.toNat c } := by
  unfold State.memWrite
  split
  case isTrue h => exact ⟨fun e => ⟨h, by simpa using e.symm⟩, fun e => by rw [e.2]⟩
  case isFalse h => exact ⟨fun e => (by cases e), fun e => absurd e.1 h⟩

@[simp] theorem push_none (s : State) : s.push none = .ok s := rfl

/-- A push below the bound (R45). -/
theorem push_of_room {s : State} (w : Int) (h : s.stack.length < stackDepth) :
    s.push (some w) = .ok { s with stack := s.stack ++ [w] } := if_neg (Nat.not_le.mpr h)

/-- A push at the bound (R45). -/
theorem push_of_full {s : State} (w : Int) (h : stackDepth ≤ s.stack.length) :
    s.push (some w) = .error .stackOverflow := if_pos h

theorem push_eq_ok {s t : State} {v : OptWord} :
    s.push v = .ok t ↔ (v = none ∧ t = s) ∨
      ∃ w, v = some w ∧ s.stack.length < stackDepth ∧ t = { s with stack := s.stack ++ [w] } := by
  cases v with
  | none => simp [eq_comm]
  | some w =>
    by_cases h : s.stack.length < stackDepth
    · simp [push_of_room w h, h, eq_comm]
    · simp [push_of_full w (Nat.not_lt.mp h), h]

/-- The top of a non-empty stack is what a pop yields (R46). -/
@[simp] theorem popped_concat {s : State} {S : List Int} {x : Int} (h : s.stack = S ++ [x]) :
    s.popped = some x := by simp [State.popped, h]

@[simp] theorem popped_empty {s : State} (h : s.stack = []) : s.popped = none := by simp [State.popped, h]

/-- What `varAddress` answers, in the order of its checks (R181, R413). -/
theorem varAddress_eq_ok {s : State} {arg : OptWord} {w : Int} :
    s.varAddress arg = .ok w ↔
      ∃ x base, arg = some x ∧ s.memRead 0 = .ok (.word base) ∧ IsWord (x + base) ∧ w = x + base := by
  constructor
  · intro h
    obtain ⟨x, hx, h⟩ := bind_eq_ok.mp h
    obtain ⟨base, hb, h⟩ := bind_eq_ok.mp h
    obtain ⟨c, hc, hw⟩ := bind_eq_ok.mp hb
    rw [cellWord_eq_ok.mp hw] at hc
    exact ⟨x, base, need_eq_ok.mp hx, hc, (checkedWord_eq_ok.mp h).1, (checkedWord_eq_ok.mp h).2⟩
  · rintro ⟨x, base, rfl, hb, hr, rfl⟩
    simp only [State.varAddress, State.memWord, need_some, ok_bind, hb, cellWord_word]
    exact checkedWord_of_isWord hr

/-- The codes EMIT lets through (R190). -/
theorem charCode_eq_ok {s : State} {v : OptWord} {c : Nat} :
    s.charCode v = .ok c ↔ v = some (c : Int) ∧ c ≤ s.params.charCodeMax := by
  cases v with
  | none => simp [State.charCode]
  | some w =>
    simp only [State.charCode, need_some, ok_bind]
    split
    case isTrue h =>
      constructor
      · intro e
        have : w.toNat = c := by simpa using e
        exact ⟨by simp; omega, by omega⟩
      · rintro ⟨e, -⟩
        have : w = c := by simpa using e
        simp [this]
    case isFalse h =>
      constructor
      · intro e; cases e
      · rintro ⟨e, hc⟩
        have : w = c := by simpa using e
        omega

/-- The ALU operation completes exactly on present operands and, where it divides, a divisor other than 0 (R147). -/
theorem aluOp_eq_ok {s t : State} {k : AluOp} :
    s.aluOp k = .ok t ↔
      ∃ a b, s.aluA = some a ∧ s.aluB = some b ∧ ¬ (k.divides = true ∧ b = 0) ∧ t = s.setAlu (exactResult k a b) := by
  constructor
  · intro h
    obtain ⟨a, ha, h⟩ := bind_eq_ok.mp h
    obtain ⟨b, hb, h⟩ := bind_eq_ok.mp h
    split at h
    case isTrue => cases h
    case isFalse hd => exact ⟨a, b, need_eq_ok.mp ha, need_eq_ok.mp hb, hd, by simpa using h.symm⟩
  · rintro ⟨a, b, ha, hb, hd, rfl⟩
    simp only [State.aluOp, ha, hb, need_some, ok_bind]
    exact if_neg hd

/-- The wrap is the floor remainder by the bound that was passed (R146), in terms `omega` reads. -/
theorem wrap_cases (r : Int) :
    (wordMax < r ∧ wrap r = r % 2147483647) ∨ (r < wordMin ∧ wrap r = r % 2147483648) ∨
      (IsWord r ∧ wrap r = r) := by
  have fm : ∀ n : Int, 0 < n → floormod r n = r % n := by
    intro n hn
    have := Int.mul_fdiv_add_fmod r n
    rw [Int.fmod_eq_emod_of_nonneg r hn.le] at this
    unfold floormod floordiv
    omega
  unfold wrap
  split
  case isTrue h => exact .inl ⟨h, fm _ (by decide)⟩
  case isFalse h =>
    split
    case isTrue h' => exact .inr (.inl ⟨h', fm _ (by decide)⟩)
    case isFalse h' => exact .inr (.inr ⟨⟨not_lt.mp h', not_lt.mp h⟩, rfl⟩)

end Sys2Proof.Machine
end

