-- ==== Sys2Proof/Laws/State.lean ====
section
/-! SUPPORT. One lemma per field of State for each named update of it. -/

namespace Sys2Proof.Machine

variable (s : State)

/-! ### State.pop -/

@[simp] theorem State.pop_pc : (s.pop).pc = s.pc := rfl
@[simp] theorem State.pop_ar : (s.pop).ar = s.ar := rfl
@[simp] theorem State.pop_ir : (s.pop).ir = s.ir := rfl
@[simp] theorem State.pop_br : (s.pop).br = s.br := rfl
@[simp] theorem State.pop_tos : (s.pop).tos = s.tos := rfl
@[simp] theorem State.pop_aluA : (s.pop).aluA = s.aluA := rfl
@[simp] theorem State.pop_aluB : (s.pop).aluB = s.aluB := rfl
@[simp] theorem State.pop_aluRes : (s.pop).aluRes = s.aluRes := rfl
@[simp] theorem State.pop_flagN : (s.pop).flagN = s.flagN := rfl
@[simp] theorem State.pop_flagZ : (s.pop).flagZ = s.flagZ := rfl
@[simp] theorem State.pop_flagV : (s.pop).flagV = s.flagV := rfl
@[simp] theorem State.pop_stack : (s.pop).stack = s.stack.dropLast := rfl
@[simp] theorem State.pop_mem : (s.pop).mem = s.mem := rfl
@[simp] theorem State.pop_latch : (s.pop).latch = s.latch := rfl
@[simp] theorem State.pop_input : (s.pop).input = s.input := rfl
@[simp] theorem State.pop_output : (s.pop).output = s.output := rfl
@[simp] theorem State.pop_mpc : (s.pop).mpc = s.mpc := rfl
@[simp] theorem State.pop_instrCount : (s.pop).instrCount = s.instrCount := rfl
@[simp] theorem State.pop_tickCount : (s.pop).tickCount = s.tickCount := rfl
@[simp] theorem State.pop_status : (s.pop).status = s.status := rfl
@[simp] theorem State.pop_params : (s.pop).params = s.params := rfl

/-! ### State.emitCodes -/

@[simp] theorem State.emitCodes_pc (codes : List Nat) : (s.emitCodes codes).pc = s.pc := rfl
@[simp] theorem State.emitCodes_ar (codes : List Nat) : (s.emitCodes codes).ar = s.ar := rfl
@[simp] theorem State.emitCodes_ir (codes : List Nat) : (s.emitCodes codes).ir = s.ir := rfl
@[simp] theorem State.emitCodes_br (codes : List Nat) : (s.emitCodes codes).br = s.br := rfl
@[simp] theorem State.emitCodes_tos (codes : List Nat) : (s.emitCodes codes).tos = s.tos := rfl
@[simp] theorem State.emitCodes_aluA (codes : List Nat) : (s.emitCodes codes).aluA = s.aluA := rfl
@[simp] theorem State.emitCodes_aluB (codes : List Nat) : (s.emitCodes codes).aluB = s.aluB := rfl
@[simp] theorem State.emitCodes_aluRes (codes : List Nat) : (s.emitCodes codes).aluRes = s.aluRes := rfl
@[simp] theorem State.emitCodes_flagN (codes : List Nat) : (s.emitCodes codes).flagN = s.flagN := rfl
@[simp] theorem State.emitCodes_flagZ (codes : List Nat) : (s.emitCodes codes).flagZ = s.flagZ := rfl
@[simp] theorem State.emitCodes_flagV (codes : List Nat) : (s.emitCodes codes).flagV = s.flagV := rfl
@[simp] theorem State.emitCodes_stack (codes : List Nat) : (s.emitCodes codes).stack = s.stack := rfl
@[simp] theorem State.emitCodes_mem (codes : List Nat) : (s.emitCodes codes).mem = s.mem := rfl
@[simp] theorem State.emitCodes_latch (codes : List Nat) : (s.emitCodes codes).latch = s.latch := rfl
@[simp] theorem State.emitCodes_input (codes : List Nat) : (s.emitCodes codes).input = s.input := rfl
@[simp] theorem State.emitCodes_output (codes : List Nat) : (s.emitCodes codes).output = s.output ++ codes := rfl
@[simp] theorem State.emitCodes_mpc (codes : List Nat) : (s.emitCodes codes).mpc = s.mpc := rfl
@[simp] theorem State.emitCodes_instrCount (codes : List Nat) : (s.emitCodes codes).instrCount = s.instrCount := rfl
@[simp] theorem State.emitCodes_tickCount (codes : List Nat) : (s.emitCodes codes).tickCount = s.tickCount := rfl
@[simp] theorem State.emitCodes_status (codes : List Nat) : (s.emitCodes codes).status = s.status := rfl
@[simp] theorem State.emitCodes_params (codes : List Nat) : (s.emitCodes codes).params = s.params := rfl

/-! ### State.raise -/

@[simp] theorem State.raise_pc (k : FaultKind) : (s.raise k).pc = s.pc := rfl
@[simp] theorem State.raise_ar (k : FaultKind) : (s.raise k).ar = s.ar := rfl
@[simp] theorem State.raise_ir (k : FaultKind) : (s.raise k).ir = s.ir := rfl
@[simp] theorem State.raise_br (k : FaultKind) : (s.raise k).br = s.br := rfl
@[simp] theorem State.raise_tos (k : FaultKind) : (s.raise k).tos = s.tos := rfl
@[simp] theorem State.raise_aluA (k : FaultKind) : (s.raise k).aluA = s.aluA := rfl
@[simp] theorem State.raise_aluB (k : FaultKind) : (s.raise k).aluB = s.aluB := rfl
@[simp] theorem State.raise_aluRes (k : FaultKind) : (s.raise k).aluRes = s.aluRes := rfl
@[simp] theorem State.raise_flagN (k : FaultKind) : (s.raise k).flagN = s.flagN := rfl
@[simp] theorem State.raise_flagZ (k : FaultKind) : (s.raise k).flagZ = s.flagZ := rfl
@[simp] theorem State.raise_flagV (k : FaultKind) : (s.raise k).flagV = s.flagV := rfl
@[simp] theorem State.raise_stack (k : FaultKind) : (s.raise k).stack = s.stack := rfl
@[simp] theorem State.raise_mem (k : FaultKind) : (s.raise k).mem = s.mem := rfl
@[simp] theorem State.raise_latch (k : FaultKind) : (s.raise k).latch = s.latch := rfl
@[simp] theorem State.raise_input (k : FaultKind) : (s.raise k).input = s.input := rfl
@[simp] theorem State.raise_output (k : FaultKind) : (s.raise k).output = s.output := rfl
@[simp] theorem State.raise_mpc (k : FaultKind) : (s.raise k).mpc = s.mpc := rfl
@[simp] theorem State.raise_instrCount (k : FaultKind) : (s.raise k).instrCount = s.instrCount := rfl
@[simp] theorem State.raise_tickCount (k : FaultKind) : (s.raise k).tickCount = s.tickCount := rfl
@[simp] theorem State.raise_status (k : FaultKind) : (s.raise k).status = .fault k := rfl
@[simp] theorem State.raise_params (k : FaultKind) : (s.raise k).params = s.params := rfl

/-! ### State.setAlu -/

@[simp] theorem State.setAlu_pc (r : Int) : (s.setAlu r).pc = s.pc := rfl
@[simp] theorem State.setAlu_ar (r : Int) : (s.setAlu r).ar = s.ar := rfl
@[simp] theorem State.setAlu_ir (r : Int) : (s.setAlu r).ir = s.ir := rfl
@[simp] theorem State.setAlu_br (r : Int) : (s.setAlu r).br = s.br := rfl
@[simp] theorem State.setAlu_tos (r : Int) : (s.setAlu r).tos = s.tos := rfl
@[simp] theorem State.setAlu_aluA (r : Int) : (s.setAlu r).aluA = s.aluA := rfl
@[simp] theorem State.setAlu_aluB (r : Int) : (s.setAlu r).aluB = s.aluB := rfl
@[simp] theorem State.setAlu_aluRes (r : Int) : (s.setAlu r).aluRes = wrap r := rfl
@[simp] theorem State.setAlu_flagN (r : Int) : (s.setAlu r).flagN = negative r := rfl
@[simp] theorem State.setAlu_flagZ (r : Int) : (s.setAlu r).flagZ = zero r := rfl
@[simp] theorem State.setAlu_flagV (r : Int) : (s.setAlu r).flagV = overflow r := rfl
@[simp] theorem State.setAlu_stack (r : Int) : (s.setAlu r).stack = s.stack := rfl
@[simp] theorem State.setAlu_mem (r : Int) : (s.setAlu r).mem = s.mem := rfl
@[simp] theorem State.setAlu_latch (r : Int) : (s.setAlu r).latch = s.latch := rfl
@[simp] theorem State.setAlu_input (r : Int) : (s.setAlu r).input = s.input := rfl
@[simp] theorem State.setAlu_output (r : Int) : (s.setAlu r).output = s.output := rfl
@[simp] theorem State.setAlu_mpc (r : Int) : (s.setAlu r).mpc = s.mpc := rfl
@[simp] theorem State.setAlu_instrCount (r : Int) : (s.setAlu r).instrCount = s.instrCount := rfl
@[simp] theorem State.setAlu_tickCount (r : Int) : (s.setAlu r).tickCount = s.tickCount := rfl
@[simp] theorem State.setAlu_status (r : Int) : (s.setAlu r).status = s.status := rfl
@[simp] theorem State.setAlu_params (r : Int) : (s.setAlu r).params = s.params := rfl

/-! ### State.enter -/

@[simp] theorem State.enter_pc (i : Instr) : (s.enter i).pc = s.pc := rfl
@[simp] theorem State.enter_ar (i : Instr) : (s.enter i).ar = s.ar := rfl
@[simp] theorem State.enter_ir (i : Instr) : (s.enter i).ir = .record (some i.opcode) i.arg i.sourceTag := rfl
@[simp] theorem State.enter_br (i : Instr) : (s.enter i).br = s.br := rfl
@[simp] theorem State.enter_tos (i : Instr) : (s.enter i).tos = s.tos := rfl
@[simp] theorem State.enter_aluA (i : Instr) : (s.enter i).aluA = s.aluA := rfl
@[simp] theorem State.enter_aluB (i : Instr) : (s.enter i).aluB = s.aluB := rfl
@[simp] theorem State.enter_aluRes (i : Instr) : (s.enter i).aluRes = s.aluRes := rfl
@[simp] theorem State.enter_flagN (i : Instr) : (s.enter i).flagN = s.flagN := rfl
@[simp] theorem State.enter_flagZ (i : Instr) : (s.enter i).flagZ = s.flagZ := rfl
@[simp] theorem State.enter_flagV (i : Instr) : (s.enter i).flagV = s.flagV := rfl
@[simp] theorem State.enter_stack (i : Instr) : (s.enter i).stack = s.stack := rfl
@[simp] theorem State.enter_mem (i : Instr) : (s.enter i).mem = s.mem := rfl
@[simp] theorem State.enter_latch (i : Instr) : (s.enter i).latch = s.latch := rfl
@[simp] theorem State.enter_input (i : Instr) : (s.enter i).input = s.input := rfl
@[simp] theorem State.enter_output (i : Instr) : (s.enter i).output = s.output := rfl
@[simp] theorem State.enter_mpc (i : Instr) : (s.enter i).mpc = firstRow i.opcode := rfl
@[simp] theorem State.enter_instrCount (i : Instr) : (s.enter i).instrCount = s.instrCount := rfl
@[simp] theorem State.enter_tickCount (i : Instr) : (s.enter i).tickCount = s.tickCount := rfl
@[simp] theorem State.enter_status (i : Instr) : (s.enter i).status = s.status := rfl
@[simp] theorem State.enter_params (i : Instr) : (s.enter i).params = s.params := rfl

end Sys2Proof.Machine
end

