-- ==== Sys2Proof/Laws/Microcode.lean ====
section
/-! SUPPORT. How signals, rows and microsequences run: the equations that let a microsequence be executed row by row. -/

namespace Sys2Proof.Machine

/-- A signal leaves the state of its effect, or raises its fault in the unchanged state (R194). -/
theorem execSignal_of_ok {g : Signal} {s t : State} (h : signalEffect g s = .ok t) : execSignal g s = t := by
  simp [execSignal, h]

theorem execSignal_of_error {g : Signal} {s : State} {k : FaultKind} (h : signalEffect g s = .error k) :
    execSignal g s = s.raise k := by
  simp [execSignal, h]

/-- A row that has no signal left is one tick (R238). -/
@[simp] theorem runSignals_nil (s : State) : runSignals [] s = { s with tickCount := s.tickCount + 1 } := rfl

/-- While the run goes on, the next signal sees what the one before left (R234). -/
theorem runSignals_cons_running {g : Signal} {rest : Row} {s t : State} (h : execSignal g s = t)
    (hr : t.status = .running) : runSignals (g :: rest) s = runSignals rest t := by
  subst h; exact if_pos hr

/-- A signal that ends the run ends the row, with no tick (R234, R238, R400). -/
theorem runSignals_cons_stopped {g : Signal} {rest : Row} {s t : State} (h : execSignal g s = t)
    (hr : t.status ≠ .running) : runSignals (g :: rest) s = t := by
  subst h; exact if_neg hr

/-- The row at a micro-address is the one executed (R233). -/
theorem stepRow_at {s : State} {row : Row} (h : table[s.mpc]? = some row) : stepRow s = runSignals row s := by
  simp [stepRow, stepRowIn, h]

/-- Inside a microsequence, running to its end is one row and then the rest (R15). -/
theorem finish_row {fuel : Nat} {s : State} {row : Row} (hm : s.mpc ≠ 0) (hr : s.status = .running)
    (h : table[s.mpc]? = some row) : finish (fuel + 1) s = finish fuel (runSignals row s) := by
  simp [finish, hm, hr, stepRow_at h]

/-- At the boundary, or in a run that has ended, nothing is left to run (R15, R57). -/
theorem finish_stop {fuel : Nat} {s : State} (h : s.mpc = 0 ∨ s.status ≠ .running) : finish fuel s = s := by
  cases fuel with
  | zero => rfl
  | succ n => exact if_pos h

/-- The table has N_UROWS rows (R241). -/
theorem table_length : table.length = nURows := by decide

/-- In a running state an instruction's meaning is its microsequence. -/
theorem runMicrosequence_running (i : Instr) {s : State} (h : s.status = .running) :
    runMicrosequence i s = .next (finish nURows (s.enter i)) := by
  simp [runMicrosequence, State.ended, h]

/-- Every arm of exec is the microsequence of its instruction. -/
theorem exec_eq_runMicrosequence (i : Instr) (s : State) : exec i s = runMicrosequence i s := by
  cases i <;> rfl

/-- A run that has ended executes nothing (R57). -/
theorem exec_ended (i : Instr) {s : State} {f : Fault} (h : s.ended = some f) : exec i s = .fault f := by
  rw [exec_eq_runMicrosequence]; simp [runMicrosequence, h]

@[simp] theorem ended_running {s : State} (h : s.status = .running) : s.ended = none := by
  simp [State.ended, h]

theorem ended_eq_none {s : State} : s.ended = none ↔ s.status = .running := by
  unfold State.ended; split <;> simp [*]

/-- Row 0 on an addressable PC (R241). -/
theorem stepRow_zero {s : State} {c : Cell} (hr : s.status = .running) (hm : s.mpc = 0)
    (h : s.memRead s.pc = .ok c) :
    stepRow s = { s with ar := s.pc, latch := c, mpc := 1, tickCount := s.tickCount + 1 } := by
  obtain ⟨ha, hc⟩ := memRead_eq_ok.mp h
  rw [stepRow_at (row := [.arFromPc, .memRead, .mpcNext]) (by rw [hm]; rfl)]
  simp [runSignals, execSignal, signalEffect, State.memRead, State.addressable, ha.1, ha.2, hc, hr, hm]

/-- Row 1 on a latched instruction (R241, R235). -/
theorem stepRow_one {s : State} {i : Instr} (hr : s.status = .running) (hm : s.mpc = 1) (h : s.latch = .instr i) :
    stepRow s = { s with ir := .record (some i.opcode) i.arg i.sourceTag, mpc := firstRow i.opcode, instrCount := s.instrCount + 1, tickCount := s.tickCount + 1 } := by
  rw [stepRow_at (row := [.irDecode, .mpcOpcode]) (by rw [hm]; rfl)]
  simp [runSignals, execSignal, signalEffect, decodeCell, IRVal.opcode?, h, hr]

/-- The fetch of an instruction cell is rows 0 and 1 (R241). -/
theorem fetch_instr {s : State} {i : Instr} (hr : s.status = .running) (hm : s.mpc = 0)
    (h : s.memRead s.pc = .ok (.instr i)) : fetch s = stepRow (stepRow s) := by
  have h0 := stepRow_zero hr hm h
  unfold fetch
  exact if_pos (by rw [h0]; exact hr)

/-- At a boundary below the ceiling a step is the fetch and the dispatch (R242). -/
theorem step_boundary {s : State} (hr : s.status = .running) (hm : s.mpc = 0)
    (hl : s.instrCount < s.params.instrLimit) : step s = dispatch (fetch s) := by
  simp [step, stepInstruction, State.ended, hr, hm, Nat.not_le.mpr hl]

end Sys2Proof.Machine
end

