-- ==== Sys2Proof/Laws/PerInstr.lean ====
section
/-! SUPPORT. Facts stated of every instruction, one lemma per constructor of Instr. -/

namespace Sys2Proof.Laws.RoundTrip

/-- Encoding an instruction and decoding its record gives it back; its opcode's ordinal is one of the 22; and it is
well-formed exactly when its arg passes the check its opcode asks for. -/
def Statement (i : Instr) : Prop :=
  decode (encode i) = .ok i ∧ (encode i).opcode < nOpcodes ∧
    i.wellFormed = if i.opcode.requiresArg then argIsPresentWord i.arg else argIsWord i.arg

theorem sum (arg : OptWord) (tag : Option SourceTag) : Statement (.sum arg tag) := ⟨rfl, of_decide_eq_true rfl, rfl⟩
theorem sub (arg : OptWord) (tag : Option SourceTag) : Statement (.sub arg tag) := ⟨rfl, of_decide_eq_true rfl, rfl⟩
theorem mul (arg : OptWord) (tag : Option SourceTag) : Statement (.mul arg tag) := ⟨rfl, of_decide_eq_true rfl, rfl⟩
theorem div (arg : OptWord) (tag : Option SourceTag) : Statement (.div arg tag) := ⟨rfl, of_decide_eq_true rfl, rfl⟩
theorem mod (arg : OptWord) (tag : Option SourceTag) : Statement (.mod arg tag) := ⟨rfl, of_decide_eq_true rfl, rfl⟩
theorem eq (arg : OptWord) (tag : Option SourceTag) : Statement (.eq arg tag) := ⟨rfl, of_decide_eq_true rfl, rfl⟩
theorem notEq (arg : OptWord) (tag : Option SourceTag) : Statement (.notEq arg tag) := ⟨rfl, of_decide_eq_true rfl, rfl⟩
theorem more (arg : OptWord) (tag : Option SourceTag) : Statement (.more arg tag) := ⟨rfl, of_decide_eq_true rfl, rfl⟩
theorem less (arg : OptWord) (tag : Option SourceTag) : Statement (.less arg tag) := ⟨rfl, of_decide_eq_true rfl, rfl⟩
theorem dup (arg : OptWord) (tag : Option SourceTag) : Statement (.dup arg tag) := ⟨rfl, of_decide_eq_true rfl, rfl⟩
theorem drop (arg : OptWord) (tag : Option SourceTag) : Statement (.drop arg tag) := ⟨rfl, of_decide_eq_true rfl, rfl⟩
theorem swap (arg : OptWord) (tag : Option SourceTag) : Statement (.swap arg tag) := ⟨rfl, of_decide_eq_true rfl, rfl⟩
theorem push (arg : OptWord) (tag : Option SourceTag) : Statement (.push arg tag) := ⟨rfl, of_decide_eq_true rfl, rfl⟩
theorem addrOnTop (arg : OptWord) (tag : Option SourceTag) : Statement (.addrOnTop arg tag) := ⟨rfl, of_decide_eq_true rfl, rfl⟩
theorem saveVar (arg : OptWord) (tag : Option SourceTag) : Statement (.saveVar arg tag) := ⟨rfl, of_decide_eq_true rfl, rfl⟩
theorem varOnTop (arg : OptWord) (tag : Option SourceTag) : Statement (.varOnTop arg tag) := ⟨rfl, of_decide_eq_true rfl, rfl⟩
theorem jzs (arg : OptWord) (tag : Option SourceTag) : Statement (.jzs arg tag) := ⟨rfl, of_decide_eq_true rfl, rfl⟩
theorem jmp (arg : OptWord) (tag : Option SourceTag) : Statement (.jmp arg tag) := ⟨rfl, of_decide_eq_true rfl, rfl⟩
theorem halt (arg : OptWord) (tag : Option SourceTag) : Statement (.halt arg tag) := ⟨rfl, of_decide_eq_true rfl, rfl⟩
theorem print (arg : OptWord) (tag : Option SourceTag) : Statement (.print arg tag) := ⟨rfl, of_decide_eq_true rfl, rfl⟩
theorem read (arg : OptWord) (tag : Option SourceTag) : Statement (.read arg tag) := ⟨rfl, of_decide_eq_true rfl, rfl⟩
theorem emit (arg : OptWord) (tag : Option SourceTag) : Statement (.emit arg tag) := ⟨rfl, of_decide_eq_true rfl, rfl⟩

end Sys2Proof.Laws.RoundTrip
end

