-- ==== Sys2Proof/Tests/Slice0.lean ====
section
/-! SUPPORT. Tests: the shape checks refuse ill-formed terms, records of every opcode decode to it, single steps give the
values of spec/95_test_vectors.md, and concrete states meet the hypotheses of the statements. -/

namespace Sys2Proof.Tests

open Sys2Proof Sys2Proof.Machine Sys2Proof.Statements

/-! ## Small states -/

/-- A small machine: 16 cells, a ceiling of 100, CHAR_CODE_MAX 255, every other piece at reset. -/
def base : State := { State.reset with params := ⟨16, 100, 255⟩ }

/-- `base` with a stack, bottom first. -/
def stk (S : List Int) : State := { base with stack := S }

/-- A stack at its bound. -/
def fullStack : State := stk (List.replicate 64 7)

/-- A stack one below its bound. -/
def almostFull : State := stk (List.replicate 63 7)

/-- The next state of a step, if there is one. -/
def after (s : State) : Option State :=
  match step s with
  | .next t => some t
  | _       => none

/-- The next state of an execution, if there is one. -/
def ran (i : Instr) (s : State) : Option State :=
  match exec i s with
  | .next t => some t
  | _       => none

/-- One step that fetches and runs `i`. -/
def runs (i : Instr) (s : State) : Option State := after (s.placeAtFetch (.instr i))

/-- STACK, N, Z, V, TICK_COUNT and STATUS. -/
structure AluView where
  stack : List Int
  n     : Bool
  z     : Bool
  v     : Bool
  ticks : Nat
  st    : Status
  deriving DecidableEq, Repr

/-- STACK, BR, TOS, PC, MPC, TICK_COUNT and STATUS. -/
structure FlowView where
  stack : List Int
  br    : OptWord
  tos   : OptWord
  pc    : Int
  mpc   : Nat
  ticks : Nat
  st    : Status
  deriving DecidableEq, Repr

def alu (r : Option State) : Option AluView :=
  r.map (fun t => ⟨t.stack, t.flagN, t.flagZ, t.flagV, t.tickCount, t.status⟩)

def flow (r : Option State) : Option FlowView :=
  r.map (fun t => ⟨t.stack, t.br, t.tos, t.pc, t.mpc, t.tickCount, t.status⟩)

theorem after_some {s : State} (h : (after s).isSome = true) : ∃ t, step s = .next t := by
  unfold after at h
  split at h
  case h_1 t e => exact ⟨t, e⟩
  case h_2 => cases h

theorem ran_some {i : Instr} {s : State} (h : (ran i s).isSome = true) : ∃ t, exec i s = .next t := by
  unfold ran at h
  split at h
  case h_1 t e => exact ⟨t, e⟩
  case h_2 => cases h

/-! ## Shape checks (30_encoding.md R108 checks 4 and 5) -/

theorem test_wellformed_accepts :
    (Instr.push (some 2147483647) none).wellFormed = true ∧ (Instr.jmp (some (-2147483648)) none).wellFormed = true ∧
    (Instr.sum none none).wellFormed = true ∧ (Instr.sum (some 9) none).wellFormed = true := by decide

theorem test_wellformed_refuses_missing_arg :
    (Instr.push none none).wellFormed = false ∧ (Instr.addrOnTop none none).wellFormed = false ∧
    (Instr.jzs none none).wellFormed = false ∧ (Instr.jmp none none).wellFormed = false := by decide

theorem test_wellformed_refuses_non_word :
    (Instr.push (some 2147483648) none).wellFormed = false ∧ (Instr.jzs (some (-2147483649)) none).wellFormed = false ∧
    (Instr.halt (some 2147483648) none).wellFormed = false := by decide

/-! ## Decoding: records written `(ordinal, arg)` as in 95_test_vectors.md and the table of 30_encoding.md R102 -/

theorem test_decode_arithmetic :
    decode ⟨0, none, none⟩ = .ok (.sum none none) ∧ decode ⟨1, none, none⟩ = .ok (.sub none none) ∧
    decode ⟨2, none, none⟩ = .ok (.mul none none) ∧ decode ⟨3, none, none⟩ = .ok (.div none none) ∧
    decode ⟨4, none, none⟩ = .ok (.mod none none) := ⟨rfl, rfl, rfl, rfl, rfl⟩

theorem test_decode_comparison :
    decode ⟨5, none, none⟩ = .ok (.eq none none) ∧ decode ⟨6, none, none⟩ = .ok (.notEq none none) ∧
    decode ⟨7, none, none⟩ = .ok (.more none none) ∧ decode ⟨8, none, none⟩ = .ok (.less none none) :=
  ⟨rfl, rfl, rfl, rfl⟩

theorem test_decode_stack :
    decode ⟨9, none, none⟩ = .ok (.dup none none) ∧ decode ⟨10, none, none⟩ = .ok (.drop none none) ∧
    decode ⟨11, none, none⟩ = .ok (.swap none none) ∧ decode ⟨12, some (-7), none⟩ = .ok (.push (some (-7)) none) :=
  ⟨rfl, rfl, rfl, rfl⟩

theorem test_decode_memory :
    decode ⟨13, some 0, none⟩ = .ok (.addrOnTop (some 0) none) ∧ decode ⟨14, none, none⟩ = .ok (.saveVar none none) ∧
    decode ⟨15, none, none⟩ = .ok (.varOnTop none none) := ⟨rfl, rfl, rfl⟩

theorem test_decode_control :
    decode ⟨16, some 15, none⟩ = .ok (.jzs (some 15) none) ∧ decode ⟨17, some 4, none⟩ = .ok (.jmp (some 4) none) ∧
    decode ⟨18, none, none⟩ = .ok (.halt none none) := ⟨rfl, rfl, rfl⟩

theorem test_decode_io :
    decode ⟨19, none, none⟩ = .ok (.print none none) ∧ decode ⟨20, none, none⟩ = .ok (.read none none) ∧
    decode ⟨21, none, none⟩ = .ok (.emit none none) := ⟨rfl, rfl, rfl⟩

/-- R107: an opcode outside the 22 is no instruction; R104 and R105: a stray arg and a tag are carried. -/
theorem test_decode_edges :
    decode ⟨22, none, none⟩ = .error (.opcodeOutsideTable 22) ∧
    decode ⟨0, some 9, some ⟨1, 2, "+"⟩⟩ = .ok (.sum (some 9) (some ⟨1, 2, "+"⟩)) ∧
    encode (.push (some 5) none) = ⟨12, some 5, none⟩ := ⟨rfl, rfl, rfl⟩

/-- The table's words: the ordinal in the low five bits, in binary. -/
theorem test_table_words :
    decodeTableWord 8 0b00000000 = some (.sum none none) ∧ decodeTableWord 8 0b00000001 = some (.sub none none) ∧
    decodeTableWord 8 0b00000010 = some (.mul none none) ∧ decodeTableWord 8 0b00000011 = some (.div none none) ∧
    decodeTableWord 8 0b00000100 = some (.mod none none) ∧ decodeTableWord 8 0b00000101 = some (.eq none none) ∧
    decodeTableWord 8 0b00000110 = some (.notEq none none) ∧ decodeTableWord 8 0b00000111 = some (.more none none) ∧
    decodeTableWord 8 0b00001000 = some (.less none none) ∧ decodeTableWord 8 0b00001001 = some (.dup none none) ∧
    decodeTableWord 8 0b00001010 = some (.drop none none) ∧ decodeTableWord 8 0b00001011 = some (.swap none none) := by
  decide

theorem test_table_words_rest :
    decodeTableWord 8 0b00001100 = some (.push (some 0) none) ∧
    decodeTableWord 8 0b00001101 = some (.addrOnTop (some 0) none) ∧
    decodeTableWord 8 0b00001110 = some (.saveVar none none) ∧ decodeTableWord 8 0b00001111 = some (.varOnTop none none) ∧
    decodeTableWord 8 0b00010000 = some (.jzs (some 0) none) ∧ decodeTableWord 8 0b00010001 = some (.jmp (some 0) none) ∧
    decodeTableWord 8 0b00010010 = some (.halt none none) ∧ decodeTableWord 8 0b00010011 = some (.print none none) ∧
    decodeTableWord 8 0b00010100 = some (.read none none) ∧ decodeTableWord 8 0b00010101 = some (.emit none none) ∧
    decodeTableWord 8 0b00010110 = none ∧ decodeTableWord 8 0b00011111 = none := by decide

/-! ## Arithmetic and comparison, one step (Table B) -/

theorem test_sum : alu (runs (.sum none none) (stk [5, 3])) = some ⟨[8], false, false, false, 6, .running⟩ ∧
    alu (runs (.sum none none) (stk [1, 2147483647])) = some ⟨[1], false, false, true, 6, .running⟩ := by decide

theorem test_sum_faults : alu (runs (.sum (some 9) none) (stk [])) = some ⟨[], false, false, false, 4, .fault .operandAbsent⟩ ∧
    alu (runs (.sum none none) (stk [7])) = some ⟨[], false, false, false, 4, .fault .operandAbsent⟩ := by decide

theorem test_sub : alu (runs (.sub none none) (stk [5, 3])) = some ⟨[-2], true, false, false, 6, .running⟩ ∧
    alu (runs (.sub none none) (stk [1, -2147483648])) = some ⟨[2147483647], true, false, true, 6, .running⟩ := by decide

theorem test_mul : alu (runs (.mul none none) (stk [6, 7])) = some ⟨[42], false, false, false, 6, .running⟩ ∧
    alu (runs (.mul none none) (stk [65536, 65536])) = some ⟨[2], false, false, true, 6, .running⟩ := by decide

theorem test_div : alu (runs (.div none none) (stk [2, -7])) = some ⟨[-4], true, false, false, 6, .running⟩ ∧
    alu (runs (.div none none) (stk [-1, -2147483648])) = some ⟨[1], false, false, true, 6, .running⟩ := by decide

theorem test_div_by_zero : alu (runs (.div none none) (stk [0, 5])) = some ⟨[], false, false, false, 4, .fault .divisionByZero⟩ ∧
    (runs (.div none none) (stk [0, 5])).map (fun t => (t.mpc, t.aluA, t.aluB)) = some (16, some 5, some 0) := by decide

theorem test_mod : alu (runs (.mod none none) (stk [2, -7])) = some ⟨[1], false, false, false, 6, .running⟩ ∧
    alu (runs (.mod none none) (stk [-2, 7])) = some ⟨[-1], true, false, false, 6, .running⟩ := by decide

theorem test_mod_by_zero : flow (runs (.mod none none) (stk [0, 5])) =
    some ⟨[], some 5, some 5, 1, 20, 4, .fault .divisionByZero⟩ := by decide

theorem test_eq : alu (runs (.eq none none) (stk [3, 3])) = some ⟨[1], false, false, false, 6, .running⟩ ∧
    alu (runs (.eq none none) (stk [1, 2])) = some ⟨[0], false, true, false, 6, .running⟩ := by decide

theorem test_notEq : alu (runs (.notEq none none) (stk [3, 4])) = some ⟨[1], false, false, false, 6, .running⟩ ∧
    alu (runs (.notEq none none) (stk [3, 3])) = some ⟨[0], false, true, false, 6, .running⟩ := by decide

theorem test_more : alu (runs (.more none none) (stk [5, 3])) = some ⟨[0], false, true, false, 6, .running⟩ ∧
    alu (runs (.more none none) (stk [3, 5])) = some ⟨[1], false, false, false, 6, .running⟩ := by decide

theorem test_less : alu (runs (.less none none) (stk [5, 3])) = some ⟨[1], false, false, false, 6, .running⟩ ∧
    alu (runs (.less none none) (stk [2147483647, -2147483648])) = some ⟨[1], false, false, false, 6, .running⟩ := by decide

/-! ## Stack, one step (Table C) -/

theorem test_dup : flow (runs (.dup none none) (stk [7])) = some ⟨[7, 7], some 7, some 7, 2, 0, 5, .running⟩ ∧
    flow (runs (.dup none none) (stk [])) = some ⟨[], none, none, 2, 0, 5, .running⟩ := by decide

theorem test_dup_full : flow (runs (.dup none none) fullStack) =
    some ⟨List.replicate 64 7, some 7, some 7, 1, 40, 4, .fault .stackOverflow⟩ := by decide

theorem test_drop : flow (runs (.drop none none) (stk [1, 2])) = some ⟨[1], some 0, some 0, 2, 0, 3, .running⟩ ∧
    flow (runs (.drop none none) (stk [])) = some ⟨[], some 0, some 0, 2, 0, 3, .running⟩ := by decide

theorem test_swap : flow (runs (.swap none none) (stk [1, 2])) = some ⟨[2, 1], some 1, some 1, 2, 0, 7, .running⟩ ∧
    flow (runs (.swap none none) (stk [7])) = some ⟨[7], none, none, 2, 0, 7, .running⟩ := by decide

theorem test_push : flow (runs (.push (some (-2147483648)) none) (stk [])) =
    some ⟨[-2147483648], some 0, some (-2147483648), 2, 0, 4, .running⟩ := by decide

theorem test_push_full : flow (runs (.push (some 64) none) fullStack) =
    some ⟨List.replicate 64 7, some 0, some 64, 1, 48, 3, .fault .stackOverflow⟩ := by decide

/-! ## Memory, one step (Table D) -/

/-- `base` with cell 0 holding a Word. -/
def withBase (w : Int) (S : List Int) : State := { stk S with mem := [(0, .word w)] }

theorem test_addrOnTop : flow (runs (.addrOnTop (some (-3)) none) (withBase 4 [])) =
    some ⟨[1], some 0, some 1, 2, 0, 4, .running⟩ := by decide

theorem test_addrOnTop_not_a_word : flow (runs (.addrOnTop (some 2147483647) none) (withBase 3 [])) =
    some ⟨[], some 0, some 0, 1, 49, 2, .fault .valueOutOfRange⟩ := by decide

theorem test_saveVar : (runs (.saveVar none none) (stk [42, 8])).map (fun t => (t.stack, t.mem.read 8, t.ar, t.tickCount)) =
    some ([], .word 42, 8, 7) := by decide

theorem test_saveVar_faults :
    (runs (.saveVar none none) (stk [5, 100])).map (fun t => (t.stack, t.mpc, t.ar, t.latch, t.status)) =
      some ([], 55, 100, .word 5, .fault .memoryOutOfRange) ∧
    flow (runs (.saveVar none none) (stk [5])) = some ⟨[], none, none, 1, 54, 5, .fault .operandAbsent⟩ := by decide

theorem test_varOnTop : flow (runs (.varOnTop none none) (withBase 5 [0])) =
    some ⟨[5], some 0, some 5, 2, 0, 6, .running⟩ := by decide

theorem test_varOnTop_faults :
    flow (runs (.varOnTop none none) (stk [1])) = some ⟨[], some 1, some 1, 1, 58, 4, .fault .notAWord⟩ ∧
    flow (runs (.varOnTop none none) (stk [-1])) = some ⟨[], some (-1), some (-1), 1, 58, 4, .fault .memoryOutOfRange⟩ := by
  decide

/-! ## Control transfer, one step (Table E) -/

theorem test_jzs : flow (runs (.jzs (some 7) none) (stk [1])) = some ⟨[1], some 0, some 7, 2, 0, 4, .running⟩ ∧
    flow (runs (.jzs (some 7) none) { stk [0] with flagZ := true }) = some ⟨[0], some 0, some 7, 7, 0, 4, .running⟩ := by
  decide

theorem test_jmp : flow (runs (.jmp (some 100) none) base) = some ⟨[], some 0, some 100, 100, 0, 4, .running⟩ := by decide

/-- The fetches that fault: PC outside the memory, and a Word at PC (`JMP 100` and `JMP 0` of Table E). -/
theorem test_fetch_faults :
    flow (after { base with pc := 100 }) = some ⟨[], some 0, some 0, 100, 0, 0, .fault .memoryOutOfRange⟩ ∧
    flow (after { withBase 3 [] with pc := 0 }) = some ⟨[], some 0, some 0, 0, 1, 1, .fault .noOpcode⟩ := by decide

theorem test_halt : flow (runs (.halt none none) base) = some ⟨[], some 0, some 0, 1, 64, 2, .halted⟩ := by decide

/-! ## I/O, one step (Table F) -/

theorem test_print : (runs (.print none none) (stk [-2147483648])).map (fun t => (t.output, t.stack)) =
    some ([45, 50, 49, 52, 55, 52, 56, 51, 54, 52, 56], []) := by decide

theorem test_print_empty : flow (runs (.print none none) base) =
    some ⟨[], none, none, 1, 66, 3, .fault .operandAbsent⟩ := by decide

theorem test_read : (runs (.read none none) { base with input := [65, 66] }).map (fun t => (t.stack, t.input)) =
      some ([65], [66]) ∧
    flow (runs (.read none none) base) = some ⟨[0], some 0, some 0, 2, 0, 4, .running⟩ := by decide

theorem test_read_full : (runs (.read none none) { fullStack with input := [65, 66] }).map
      (fun t => (t.stack.length, t.tos, t.input, t.mpc, t.status)) =
    some (64, some 65, [66], 68, .fault .stackOverflow) := by decide

theorem test_emit : (runs (.emit none none) (stk [255])).map (fun t => (t.output, t.stack)) = some ([255], []) := by decide

theorem test_emit_faults : flow (runs (.emit none none) (stk [-1])) =
      some ⟨[], some (-1), some (-1), 1, 70, 3, .fault .badCharCode⟩ ∧
    flow (runs (.emit none none) (stk [256])) = some ⟨[], some 256, some 256, 1, 70, 3, .fault .badCharCode⟩ := by decide

/-! ## The control unit and the reset (Table G; 10_state.md R60) -/

theorem test_limit : after { base with params := ⟨16, 0, 255⟩ } =
    some { base with params := ⟨16, 0, 255⟩, status := .limit } := by decide

theorem test_reset : State.reset.pc = 1 ∧ State.reset.mpc = 0 ∧ State.reset.tos = some 0 ∧ State.reset.stack = [] ∧
    State.reset.status = .running ∧ State.reset.latch = .word 0 := by decide

/-- withFetchWord: the very next step from reset runs the word's instruction (HALT, DROP). -/
theorem test_withFetchWord :
    flow (after (State.reset.withFetchWord 8 18)) = some ⟨[], some 0, some 0, 1, 64, 2, .halted⟩ ∧
    flow (after (State.reset.withFetchWord 8 10)) = some ⟨[], some 0, some 0, 2, 0, 3, .running⟩ := by decide

/-- The microcode's row counts and the fault codes (R241, R401). -/
theorem test_table : table.length = 71 ∧ FaultKind.badCharCode.code = 9 ∧ FaultKind.invalidSignal.code = 1 := by decide

/-! ## Witnesses: concrete states and operands that meet the hypotheses of each statement, at the boundary values -/

/-- EncodedInstructionDecodesBack: both outcomes, at the ordinals where they meet. -/
theorem witness_EncodedInstructionDecodesBack :
    decode ⟨21, some 3, none⟩ = .ok (.emit (some 3) none) ∧ encode (.emit (some 3) none) = ⟨21, some 3, none⟩ ∧
    decode ⟨22, some 3, none⟩ = .error (.opcodeOutsideTable 22) := ⟨rfl, rfl, rfl⟩

/-- MemoryAccessesAreCheckedAndCoherent: canonical memory; addresses -1, 0, 15 and 16 of 16. -/
theorem witness_MemoryAccesses :
    (withBase 5 []).mem.wf ∧ ¬ (withBase 5 []).addressable (-1) ∧ (withBase 5 []).addressable 0 ∧
    (withBase 5 []).addressable 15 ∧ ¬ (withBase 5 []).addressable 16 := by decide

/-- PushAndPopFollowTheirRules: depths 64, 63, 0 and a non-empty stack. -/
theorem witness_PushAndPop :
    fullStack.stack.length = 64 ∧ almostFull.stack.length < 64 ∧ base.stack = [] ∧ (stk [1, 2]).stack = [1] ++ [2] := by
  decide

/-- WrapIsTheAsymmetricModulo: both sides of both bounds, with the values of 95_test_vectors.md E9. -/
theorem witness_Wrap :
    wrap 2147483648 = 1 ∧ wrap 2147483647 = 2147483647 ∧ wrap (-2147483648) = -2147483648 ∧
    wrap (-2147483649) = 2147483647 ∧ wrap 4294967294 = 0 := by decide

/-- DivisionFloorsAndModuloFollowsDivisor: a positive and a negative divisor (Table A). -/
theorem witness_Division :
    exactResult .div (-7) 2 = -4 ∧ exactResult .mod (-7) 2 = 1 ∧ exactResult .div 7 (-2) = -4 ∧
    exactResult .mod 7 (-2) = -1 := by decide

/-- `base` with the ALU's operands. -/
def loaded (a b : OptWord) : State := { base with aluA := a, aluB := b }

/-- AluOperationWritesResultAndFlags: an absent operand, divisor 0, divisor 1, and 0 for an operation that does not divide. -/
theorem witness_AluOperation :
    (loaded none (some 1)).status = .running ∧ (loaded none (some 1)).aluA = none ∧ (loaded (some 1) none).aluB = none ∧
    (loaded (some 5) (some 0)).aluA = some 5 ∧ (loaded (some 5) (some 0)).aluB = some 0 ∧
    (execSignal (.aluOp .div) (loaded (some 5) (some 0))).status = .fault .divisionByZero ∧
    (execSignal (.aluOp .div) (loaded (some 5) (some 1))).aluRes = 5 ∧
    (execSignal (.aluOp .add) (loaded (some 5) (some 0))).aluRes = 5 := by decide

/-- DecimalIsTheShortestNumeral: 0, a negative number, a number with a zero digit. -/
theorem witness_Decimal : decimal 0 = [48] ∧ decimal (-12) = [45, 49, 50] ∧ decimal 100 = [49, 48, 48] := by decide

/-- FaultingSignalChangesOnlyStatus: DS_PUSH on a full stack after TOS_FROM_BR, which goes on. -/
theorem witness_FaultingSignal :
    (afterSignals [.tosFromBr] fullStack).status = .running ∧
    (execSignal .dsPush (afterSignals [.tosFromBr] fullStack)).status = .fault .stackOverflow ∧
    (∀ n ≤ 1, (afterSignals (List.take n [Signal.tosFromBr]) fullStack).status = .running) := by decide

/-- RowWithoutMicroAddressSignalKeepsMpc: a table whose one row is PC_INC. -/
theorem witness_RowWithoutMicroAddressSignal :
    base.status = .running ∧ (∀ g ∈ [Signal.pcInc], endsRow g = false) ∧
    ([[Signal.pcInc]] : List Row)[base.mpc]? = some [.pcInc] := by decide

/-- InvalidSignalEndsTheRun: a running state at micro-address 0. -/
theorem witness_InvalidSignal : base.status = .running ∧ base.mpc = 0 ∧ Signal.invalid.category = none := by decide

/-- DatapathSignalsLeaveFlagsAndSequencer: a signal that completes and one that faults. -/
theorem witness_DatapathSignals :
    Signal.pcInc.category ≠ some .microcodeAddress ∧ Signal.pcInc.category ≠ some .halt ∧ Signal.pcInc.category ≠ none ∧
    (execSignal .pcInc base).pc = 2 ∧ Signal.dsPush.category = some .dataStack ∧
    (execSignal .dsPush fullStack).status = .fault .stackOverflow := by decide

/-! ### The loader -/

/-- The result of a load, if it is a run. -/
def loads (p : Params) (records : List Record) (input : List Nat) : Option State :=
  match load p records input with
  | .ok s    => some s
  | .error _ => none

theorem loads_some {p : Params} {records : List Record} {input : List Nat} (h : (loads p records input).isSome = true) :
    ∃ s, load p records input = .ok s := by
  unfold loads at h
  split at h
  case h_1 t e => exact ⟨t, e⟩
  case h_2 => cases h

/-- The smallest program (95_test_vectors.md E2). -/
def haltOnly : List Record := [⟨18, none, none⟩]

/-- A loadable program with an argument, on a memory it fills exactly. -/
def pushHalt : List Record := [⟨12, some 2147483647, none⟩, ⟨18, none, none⟩]

/-- LoaderAcceptsExactlyTheCheckedLists, LoadedRunStartsAtReset and LoadedStateMeetsBothInvariants: accepted lists, with
N + 1 = MEM_SIZE and an input code equal to CHAR_CODE_MAX. -/
theorem witness_loader_accepts :
    (Params.mk 3 100 255).wf ∧ (∃ s, load ⟨3, 100, 255⟩ pushHalt [255] = .ok s) ∧
    (Params.mk 2 100 255).wf ∧ (∃ s, load ⟨2, 100, 255⟩ haltOnly [] = .ok s) ∧
    ((Params.mk 2147483647 100 255).memSize : Int) ≤ 2147483647 :=
  ⟨by decide, loads_some (by decide), by decide, loads_some (by decide), by decide⟩

/-- One refused list for each check of R108. -/
theorem witness_loader_refuses :
    loads ⟨3, 100, 255⟩ [] [] = none ∧
    loads ⟨3, 100, 255⟩ [⟨22, none, none⟩, ⟨18, none, none⟩] [] = none ∧
    loads ⟨3, 100, 255⟩ [⟨18, none, none⟩, ⟨9, none, none⟩] [] = none ∧
    loads ⟨3, 100, 255⟩ [⟨12, none, none⟩, ⟨18, none, none⟩] [] = none ∧
    loads ⟨3, 100, 255⟩ [⟨12, some 2147483648, none⟩, ⟨18, none, none⟩] [] = none ∧
    loads ⟨2, 100, 255⟩ pushHalt [] = none ∧
    loads ⟨3, 100, 255⟩ pushHalt [256] = none := by decide

/-- The image of a load (E2): cell 0 holds N + 1, cell 1 the instruction. -/
theorem test_load_image : (loads ⟨3, 100, 255⟩ haltOnly [7]).map (fun s => (s.mem.read 0, s.mem.read 1, s.mem.read 2, s.input)) =
    some (.word 2, .instr (.halt none none), .word 0, [7]) := by decide

/-! ### The invariants, a step, the ends of a run -/

/-- A state about to run `SUM` on two elements. -/
def readySum : State := (stk [5, 3]).placeAtFetch (.instr (.sum none none))

/-- A state in the row after the PC_INC of JZS, with PC already outside the memory and Z = 1. -/
def insideJzs : State :=
  { base with pc := 16, mpc := 61, tos := some 3, flagZ := true, ir := .record (some .jzs) (some 3) none }

theorem witness_StepKeepsInvariant : readySum.Inv ∧ ∃ t, step readySum = .next t :=
  ⟨⟨by decide, ⟨by decide, by decide, by decide, by decide, by decide, by decide, by decide, by decide, by decide⟩,
    ⟨by decide, by decide⟩, ⟨by decide, by decide, by decide⟩, ⟨by decide, by decide⟩, ⟨by decide, by decide⟩⟩,
    after_some (by decide)⟩

theorem rowStep_running {s : State} (h : s.status = .running) (hm : s.mpc ≠ 0) (hr : s.mpc < nURows) :
    ∃ t, rowStep s = .next t :=
  ⟨stepRow s, by simp [rowStep, State.ended, h, hm, hr]⟩

theorem witness_RowStepKeepsRowInvariant : insideJzs.RowInv ∧ ∃ t, rowStep insideJzs = .next t :=
  ⟨⟨by decide, ⟨by decide, by decide, by decide, by decide, by decide, by decide, by decide, by decide, by decide⟩,
    ⟨by decide, by decide⟩, ⟨by decide, by decide, by decide⟩, ⟨by decide, by decide⟩, by decide, by decide⟩,
    rowStep_running rfl (by decide) (by decide)⟩

/-- StepRunsTheDecodedInstruction, FetchOutsideMemoryFaults, FetchOfWordFaultsNoOpcode: PC at 15 (the last address), at -1
and at 16, and at a blank cell. -/
theorem witness_fetch :
    AboutToFetch { base with pc := 15, mem := [(15, .instr (.drop none none))] } ∧
    Memory.read [(15, .instr (.drop none none))] 15 = .instr (.drop none none) ∧
    AboutToFetch { base with pc := -1 } ∧ AboutToFetch { base with pc := 16 } ∧ base.params.memSize = 16 ∧
    AboutToFetch base ∧ base.mem.read 1 = .word 0 := by decide

/-- CeilingEndsRunAtBoundary: the count equal to the limit, one below it, and a state inside an instruction. -/
theorem witness_CeilingEndsRun :
    base.status = .running ∧ base.mpc = 0 ∧ base.params.instrLimit ≤ { base with instrCount := 100 }.instrCount ∧
    ¬ base.params.instrLimit ≤ { base with instrCount := 99 }.instrCount ∧ insideJzs.status = .running ∧
    insideJzs.mpc ≠ 0 ∧ insideJzs.mpc < nURows := by decide

/-- EndedRunTakesNoStep: a state of each end. -/
theorem witness_EndedRun :
    { base with status := .halted }.ended = some .runHalted ∧ { base with status := .limit }.ended = some .runAtLimit ∧
    { base with status := .fault .notAWord }.ended = some (.runFaulted .notAWord) := by decide

/-- StepIsRowsInSequence: SWAP takes the most rows, seven. -/
theorem witness_StepIsRows :
    (match rowMachine.run 7 ((stk [1, 2]).placeAtFetch (.instr (.swap none none))) with
     | .next t => some (t.stack, t.mpc)
     | _       => none) = some ([2, 1], 0) := by decide

/-- TicksPerInstruction and InstructionCountRisesPerDispatch: a step that goes on, one that halts, one with no instruction. -/
theorem witness_ticks_and_count :
    AboutToFetch readySum ∧ readySum.stack.length ≤ stackDepth ∧
    (after readySum).map (fun t => (t.status, t.tickCount, t.instrCount)) = some (.running, 6, 1) ∧
    (runs (.halt none none) base).map (fun t => (t.status, t.tickCount, t.instrCount)) = some (.halted, 2, 1) ∧
    (after base).map (fun t => (t.status, t.instrCount)) = some (.fault .noOpcode, 0) := by decide

theorem witness_fetched_instruction : readySum.memRead readySum.pc = .ok (.instr (.sum none none)) := by rfl

/-! ### The instructions -/

/-- The nine ALU instructions: two elements, one, none, and the deepest stack. -/
theorem witness_binary :
    Ready (stk [5, 3]) ∧ (stk [5, 3]).stack = [] ++ [5, 3] ∧ Ready (stk [7]) ∧ (stk [7]).stack = [7] ∧ Ready (stk []) ∧
    Ready fullStack ∧ fullStack.stack = List.replicate 62 7 ++ [7, 7] := by decide

/-- DIV and MOD: divisors 0 and not 0; the two operands of DIV whose quotient is not a Word. -/
theorem witness_division :
    (stk [0, 5]).stack = [] ++ [0, 5] ∧ Ready (stk [0, 5]) ∧ Ready (stk [-1, -2147483648]) ∧ IsWord (-2147483648) ∧
    IsWord (-1) ∧ overflow (floordiv (-2147483648) (-1)) = true ∧ overflow (floordiv 7 2) = false := by decide

/-- DUP, PUSH, READ, ADDR_ON_TOP: depths 63 and 64; DUP, DROP, SWAP: short stacks. -/
theorem witness_stack :
    Ready almostFull ∧ almostFull.stack.length < 64 ∧ almostFull.stack = List.replicate 62 7 ++ [7] ∧ Ready fullStack ∧
    fullStack.stack.length = 64 ∧ fullStack.stack = List.replicate 63 7 ++ [7] ∧ Ready base ∧ base.stack = [] := by decide

/-- ADDR_ON_TOP: a base, sums at and beyond the largest Word, an Instruction in cell 0. -/
theorem witness_AddrOnTop :
    Ready (withBase 3 []) ∧ 0 < base.params.memSize ∧ (withBase 3 []).mem.read 0 = .word 3 ∧ IsWord (2147483644 + 3) ∧
    ¬ IsWord (2147483645 + 3) ∧ Memory.read [(0, .instr (.halt none none))] 0 = .instr (.halt none none) := by decide

/-- SAVE_VAR and VAR_ON_TOP: addresses 0, 15, -1 and 16; a Word and an Instruction there; one element; none. -/
theorem witness_variables :
    (stk [42, 15]).mem.wf ∧ (stk [42, 15]).stack = [] ++ [42, 15] ∧ base.params.memSize = 16 ∧
    (stk [42, 16]).stack = [] ++ [42, 16] ∧ (stk [42, -1]).stack = [] ++ [42, -1] ∧ (withBase 5 [0]).mem.read 0 = .word 5 ∧
    readySum.mem.read 1 = .instr (.sum none none) ∧ Ready (stk [42, 15]) := by decide

/-- JZS, JMP, HALT: both values of Z, a HALT about to be fetched. -/
theorem witness_control :
    base.status = .running ∧ base.flagZ = false ∧ { base with flagZ := true }.flagZ = true ∧
    AboutToFetch (base.placeAtFetch (.instr (.halt none none))) := by decide

theorem witness_halt_fetched :
    (base.placeAtFetch (.instr (.halt none none))).memRead (base.placeAtFetch (.instr (.halt none none))).pc =
      .ok (.instr (.halt none none)) := by rfl

/-- READ: a code and an empty queue, depths 63 and 64; EMIT: codes 0, CHAR_CODE_MAX, one above, one below. -/
theorem witness_io :
    Ready { almostFull with input := [65] } ∧ Ready { fullStack with input := [65] } ∧ fullStack.input = [] ∧
    base.params.charCodeMax = 255 ∧ (stk [255]).stack = [] ++ [255] ∧ (stk [256]).stack = [] ++ [256] ∧
    (stk [-1]).stack = [] ++ [-1] ∧ (stk [0]).stack = [] ++ [0] := by decide

/-- MissingRequiredArgumentIsAbsent: both values of Z, and the four outcomes. -/
theorem witness_MissingArgument :
    (ran (.push none none) base).map (·.status) = some .running ∧
    (ran (.addrOnTop none none) base).map (·.status) = some (.fault .operandAbsent) ∧
    (ran (.jzs none none) base).map (·.status) = some .running ∧
    (ran (.jzs none none) { base with flagZ := true }).map (·.status) = some (.fault .operandAbsent) ∧
    (ran (.jmp none none) base).map (·.status) = some (.fault .operandAbsent) := by decide

/-- The five frames: an execution of one instruction of each family, and a faulting ALU instruction. -/
theorem witness_frames :
    (∃ t, exec (.sum none none) (stk [5, 3]) = .next t) ∧ Opcode.sum ∈ aluOpcodes ∧
    (∃ t, exec (.div none none) (stk [0, 5]) = .next t) ∧
    (ran (.div none none) (stk [0, 5])).map (·.status) = some (.fault .divisionByZero) ∧
    (∃ t, exec (.swap none none) (stk [1, 2]) = .next t) ∧ (∃ t, exec (.drop none none) (stk [1, 2]) = .next t) ∧
    (∃ t, exec (.push (some 5) none) base = .next t) :=
  ⟨ran_some (by decide), by decide, ran_some (by decide), by decide, ran_some (by decide), ran_some (by decide),
    ran_some (by decide)⟩

theorem witness_frames_rest :
    (∃ t, exec (.saveVar none none) (stk [42, 15]) = .next t) ∧ (stk [42, 15]).popped ≠ some ((14 : Nat) : Int) ∧
    (∃ t, exec (.addrOnTop (some 1) none) (withBase 3 []) = .next t) ∧
    (∃ t, exec (.jzs (some 3) none) base = .next t) ∧ (∃ t, exec (.halt none none) base = .next t) ∧
    (∃ t, exec (.print none none) (stk [5]) = .next t) ∧ (∃ t, exec (.read none none) base = .next t) :=
  ⟨ran_some (by decide), by decide, ran_some (by decide), ran_some (by decide), ran_some (by decide),
    ran_some (by decide), ran_some (by decide)⟩

/-- FlagsPersistBetweenAluInstructions, ProgramsNeverWriteInstructions, BuffersMoveOneWayAndParametersStay: a SAVE_VAR over a
program cell, and a blank cell at PC. -/
theorem witness_steps :
    ((stk [42, 2]).placeAtFetch (.instr (.saveVar none none))).mem.wf ∧
    ((stk [42, 2]).placeAtFetch (.instr (.saveVar none none))).mpc = 0 ∧ Opcode.saveVar ∉ aluOpcodes ∧
    (∃ t, step ((stk [42, 2]).placeAtFetch (.instr (.saveVar none none))) = .next t) ∧ (∃ t, step base = .next t) :=
  ⟨by decide, by decide, by decide, after_some (by decide), after_some (by decide)⟩

/-- The cells at PC of the two states of `witness_steps`. -/
theorem witness_steps_cells :
    ((stk [42, 2]).placeAtFetch (.instr (.saveVar none none))).memRead 1 = .ok (.instr (.saveVar none none)) ∧
    base.memRead 1 = .ok (.word 0) := ⟨rfl, rfl⟩

/-- SaveVarThenVarOnTopRoundTrips: both ends of the memory. -/
theorem witness_SaveVarThenVarOnTop :
    Ready (stk [42, 0]) ∧ (stk [42, 0]).mem.wf ∧ (stk [42, 0]).stack = [] ++ [42, 0] ∧ Ready (stk [42, 15]) ∧
    (0 : Int) ≤ 15 ∧ (15 : Int) < (stk [42, 15]).params.memSize := by decide

end Sys2Proof.Tests
end

section
/-! SUPPORT. What a signal that completes leaves, signal by signal: the inversion of `signalEffect`, and the frames that
follow from it (spec/41_datapath_signals.md R171 to R192; spec/42_control_unit.md R231 to R237). -/

namespace Sys2Proof.Machine

/-- `Completes s g t`: signal `g` completes in `s` and leaves `t`, with the conditions under which it does. -/
inductive Completes (s : State) : Signal → State → Prop
  | arFromPc : Completes s .arFromPc { s with ar := s.pc }
  | arFromTos {w : Int} (hw : s.tos = some w) : Completes s .arFromTos { s with ar := w }
  | memRead {c : Cell} (hc : s.memRead s.ar = .ok c) : Completes s .memRead { s with latch := c }
  | memWrite (ha : s.addressable s.ar) :
      Completes s .memWrite { s with mem := s.mem.write s.ar.toNat s.latch }
  | memLatchTos {w : Int} (hw : s.tos = some w) : Completes s .memLatchTos { s with latch := .word w }
  | irDecode : Completes s .irDecode { s with ir := decodeCell s.latch }
  | tosFromAlu : Completes s .tosFromAlu { s with tos := some s.aluRes }
  | tosFromBr : Completes s .tosFromBr { s with tos := s.br }
  | tosFromMem {w : Int} (hw : s.memRead s.ar = .ok (.word w)) : Completes s .tosFromMem { s with tos := some w }
  | tosFromArg : Completes s .tosFromArg { s with tos := s.ir.arg }
  | tosFromVarAddr {x base : Int} (hx : s.ir.arg = some x) (hb : s.memRead 0 = .ok (.word base))
      (hw : IsWord (x + base)) : Completes s .tosFromVarAddr { s with tos := some (x + base) }
  | pcInc : Completes s .pcInc { s with pc := s.pc + 1 }
  | dsPushNone (hv : s.tos = none) : Completes s .dsPush s
  | dsPushSome {w : Int} (hw : s.tos = some w) (room : s.stack.length < stackDepth) :
      Completes s .dsPush { s with stack := s.stack ++ [w] }
  | dsPop : Completes s .dsPop s.pop
  | aluLoad : Completes s .aluLoad { s.pop with aluA := s.tos, aluB := s.popped }
  | aluOp {k : AluOp} {a b : Int} (ha : s.aluA = some a) (hb : s.aluB = some b)
      (hd : ¬ (k.divides = true ∧ b = 0)) : Completes s (.aluOp k) (s.setAlu (exactResult k a b))
  | brFromPop : Completes s .brFromPop { s.pop with br := s.popped }
  | ioPrint {w : Int} (hw : s.tos = some w) : Completes s .ioPrint (s.emitCodes (decimal w))
  | ioReadNone (hi : s.input = []) : Completes s .ioRead { s with tos := some 0 }
  | ioReadSome {c : Nat} {rest : List Nat} (hi : s.input = c :: rest) :
      Completes s .ioRead { s with tos := some c, input := rest }
  | ioEmit {c : Nat} (hw : s.tos = some (c : Int)) (hc : c ≤ s.params.charCodeMax) :
      Completes s .ioEmit (s.emitCodes [c])
  | jumpIfZStay (hz : s.flagZ = false) : Completes s .jumpIfZ s
  | jumpIfZTake {w : Int} (hz : s.flagZ = true) (hw : s.tos = some w) : Completes s .jumpIfZ { s with pc := w }
  | jump {w : Int} (hw : s.tos = some w) : Completes s .jump { s with pc := w }
  | mpcNext : Completes s .mpcNext { s with mpc := s.mpc + 1 }
  | mpcZero : Completes s .mpcZero { s with mpc := 0 }
  | mpcOpcode {o : Opcode} (ho : s.ir.opcode? = some o) :
      Completes s .mpcOpcode { s with mpc := firstRow o, instrCount := s.instrCount + 1 }
  | halt : Completes s .halt { s with status := .halted }

/-- A signal whose effect is a state completes as its constructor of `Completes` says. -/
theorem completes_of_ok {g : Signal} {s t : State} (h : signalEffect g s = .ok t) : Completes s g t := by
  cases g with
  | arFromPc => cases h; exact .arFromPc
  | arFromTos =>
    obtain ⟨w, hw, ⟨⟩⟩ := bind_eq_ok.mp h
    exact .arFromTos (need_eq_ok.mp hw)
  | memRead =>
    obtain ⟨c, hc, ⟨⟩⟩ := bind_eq_ok.mp h
    exact .memRead hc
  | memWrite =>
    obtain ⟨ha, rfl⟩ := memWrite_eq_ok.mp h
    exact .memWrite ha
  | memLatchTos =>
    obtain ⟨w, hw, ⟨⟩⟩ := bind_eq_ok.mp h
    exact .memLatchTos (need_eq_ok.mp hw)
  | irDecode => cases h; exact .irDecode
  | tosFromAlu => cases h; exact .tosFromAlu
  | tosFromBr => cases h; exact .tosFromBr
  | tosFromMem =>
    obtain ⟨w, hw, ⟨⟩⟩ := bind_eq_ok.mp h
    obtain ⟨c, hc, hcw⟩ := bind_eq_ok.mp hw
    exact .tosFromMem (cellWord_eq_ok.mp hcw ▸ hc)
  | tosFromArg => cases h; exact .tosFromArg
  | tosFromVarAddr =>
    obtain ⟨w, hw, ⟨⟩⟩ := bind_eq_ok.mp h
    obtain ⟨x, base, hx, hb, hsum, rfl⟩ := varAddress_eq_ok.mp hw
    exact .tosFromVarAddr hx hb hsum
  | pcInc => cases h; exact .pcInc
  | dsPush =>
    obtain ⟨hv, rfl⟩ | ⟨w, hw, room, rfl⟩ := push_eq_ok.mp h
    · exact .dsPushNone hv
    · exact .dsPushSome hw room
  | dsPop => cases h; exact .dsPop
  | aluLoad => cases h; exact .aluLoad
  | aluOp k =>
    obtain ⟨a, b, ha, hb, hd, rfl⟩ := aluOp_eq_ok.mp h
    exact .aluOp ha hb hd
  | brFromPop => cases h; exact .brFromPop
  | ioPrint =>
    obtain ⟨w, hw, ⟨⟩⟩ := bind_eq_ok.mp h
    exact .ioPrint (need_eq_ok.mp hw)
  | ioRead =>
    simp only [signalEffect] at h
    split at h
    next hi => cases h; exact .ioReadNone hi
    next hi => cases h; exact .ioReadSome hi
  | ioEmit =>
    obtain ⟨c, hc, ⟨⟩⟩ := bind_eq_ok.mp h
    obtain ⟨hw, hmax⟩ := charCode_eq_ok.mp hc
    exact .ioEmit hw hmax
  | jumpIfZ =>
    simp only [signalEffect] at h
    split at h
    next hz =>
      obtain ⟨w, hw, ⟨⟩⟩ := bind_eq_ok.mp h
      exact .jumpIfZTake hz (need_eq_ok.mp hw)
    next hz => cases h; exact .jumpIfZStay (Bool.eq_false_iff.mpr hz)
  | jump =>
    obtain ⟨w, hw, ⟨⟩⟩ := bind_eq_ok.mp h
    exact .jump (need_eq_ok.mp hw)
  | mpcNext => cases h; exact .mpcNext
  | mpcZero => cases h; exact .mpcZero
  | mpcOpcode =>
    simp only [signalEffect] at h
    split at h
    next ho => cases h; exact .mpcOpcode ho
    next => cases h
  | halt => cases h; exact .halt
  | invalid => cases h

/-- A signal completes, or faults with nothing but STATUS changed (R194, R400). -/
theorem execSignal_cases (g : Signal) (s : State) :
    Completes s g (execSignal g s) ∨ ∃ k, execSignal g s = s.raise k := by
  cases h : signalEffect g s with
  | ok t => exact .inl (execSignal_of_ok h ▸ completes_of_ok h)
  | error k => exact .inr ⟨k, execSignal_of_error h⟩

/-- No signal writes the parameters (R30). -/
theorem execSignal_params (g : Signal) (s : State) : (execSignal g s).params = s.params := by
  obtain h | ⟨k, h⟩ := execSignal_cases g s
  · generalize execSignal g s = t at h
    cases h <;> rfl
  · simp [h]

/-- The signals that write PC (R182, R191, R192). -/
def Signal.writesPc : Signal → Bool
  | .pcInc | .jumpIfZ | .jump => true
  | _ => false

theorem execSignal_pc {g : Signal} (hg : g.writesPc = false) (s : State) : (execSignal g s).pc = s.pc := by
  obtain h | ⟨k, h⟩ := execSignal_cases g s
  · generalize execSignal g s = t at h
    cases h with
    | pcInc | jumpIfZStay | jumpIfZTake | jump => cases hg
    | _ => rfl
  · simp [h]

/-- The signals of the control unit, which end a row (42_control_unit.md R231, R232, R235, R236). -/
def Signal.sequences : Signal → Bool
  | .mpcNext | .mpcZero | .mpcOpcode | .halt => true
  | _ => false

theorem execSignal_mpc {g : Signal} (hg : g.sequences = false) (s : State) : (execSignal g s).mpc = s.mpc := by
  obtain h | ⟨k, h⟩ := execSignal_cases g s
  · generalize execSignal g s = t at h
    cases h with
    | mpcNext | mpcZero | mpcOpcode | halt => cases hg
    | _ => rfl
  · simp [h]

end Sys2Proof.Machine
end

section
/-! SUPPORT. The part of the invariants that speaks of values, and why every signal keeps it (spec/00_scope.md R10;
spec/10_state.md R47; spec/40_alu.md R149; spec/48_io.md R370). -/

namespace Sys2Proof.Machine

/-! ### What the operations answer stays in range -/

/-- The wrap gives a Word for every exact result (R149). -/
theorem wrap_isWord (r : Int) : IsWord (wrap r) := by
  obtain ⟨-, e⟩ | ⟨-, e⟩ | ⟨h, e⟩ := wrap_cases r
  · rw [e]; simp only [IsWord, wordMin, wordMax]; omega
  · rw [e]; simp only [IsWord, wordMin, wordMax]; omega
  · rwa [e]

theorem digitCodes_le (fuel n : Nat) : ∀ c ∈ digitCodes fuel n, c ≤ 57 := by
  induction fuel generalizing n with
  | zero => simp [digitCodes]
  | succ fuel ih =>
    unfold digitCodes
    split
    case isTrue h => simp; omega
    case isFalse h =>
      intro c hc
      obtain hc | hc := List.mem_append.mp hc
      · exact ih _ c hc
      · rw [List.mem_singleton.mp hc]; omega

/-- Every code of a decimal is the minus sign's or a digit's (R374). -/
theorem decimal_le (w : Int) : ∀ c ∈ decimal w, c ≤ 57 := by
  intro c hc
  obtain hc | hc := List.mem_append.mp hc
  · split at hc
    case isTrue => rw [List.mem_singleton.mp hc]; decide
    case isFalse => cases hc
  · exact digitCodes_le _ _ c hc

theorem optIsWord_none : OptIsWord none := nofun

theorem optIsWord_some {w : Int} : OptIsWord (some w) ↔ IsWord w :=
  ⟨fun h => h w rfl, fun h _ e => Option.some.inj e ▸ h⟩

theorem argIsWord_iff {arg : OptWord} : argIsWord arg = true ↔ OptIsWord arg := by
  cases arg with
  | none => exact ⟨fun _ => optIsWord_none, fun _ => rfl⟩
  | some w => exact decide_eq_true_iff.trans optIsWord_some.symm

theorem argIsWord_of_present {arg : OptWord} (h : argIsPresentWord arg = true) : argIsWord arg = true := by
  cases arg with
  | none => cases h
  | some w => exact h

/-- The arg of a well-formed instruction is a Word or absent (R108 check 5). -/
theorem arg_isWord_of_wellFormed {i : Instr} (h : i.wellFormed = true) : OptIsWord i.arg := by
  rw [← argIsWord_iff]
  cases i with
  | push | addrOnTop | jzs | jmp => exact argIsWord_of_present h
  | _ => exact h

@[simp] theorem Cell.wf_word (w : Int) : (Cell.word w).wf = true ↔ IsWord w := decide_eq_true_iff

/-- Decoding a well-formed cell gives IR an arg that is a Word or absent (R106). -/
theorem decodeCell_wf {c : Cell} (h : c.wf = true) : (decodeCell c).wf := by
  cases c with
  | word w => exact optIsWord_some.mpr ((Cell.wf_word w).mp h)
  | instr i => exact arg_isWord_of_wellFormed h

/-! ### The values of a state -/

/-- What `State.Inv` and `State.RowInv` share: all values of the state are in range, whatever the sequencer does. -/
structure State.ValuesSound (s : State) : Prop where
  params    : s.params.wf
  registers : s.RegistersHoldWords
  stack     : s.StackSound
  memory    : s.MemorySound
  buffers   : s.BuffersSound

theorem State.ValuesSound.rowInv {s : State} (h : s.ValuesSound) (row : s.mpc < nURows)
    (pcRoom : s.status = .running → s.mpc ≠ 0 → s.mpc ≠ 61 → s.pc < s.params.memSize) : s.RowInv :=
  ⟨h.params, h.registers, h.stack, h.memory, h.buffers, row, pcRoom⟩

theorem State.RowInv.values {s : State} (h : s.RowInv) : s.ValuesSound :=
  ⟨h.params, h.registers, h.stack, h.memory, h.buffers⟩

theorem State.Inv.values {s : State} (h : s.Inv) : s.ValuesSound :=
  ⟨h.params, h.registers, h.stack, h.memory, h.buffers⟩

/-- At a boundary the invariant of the step is stronger than that of the row step. -/
theorem State.Inv.rowInv {s : State} (h : s.Inv) : s.RowInv :=
  h.values.rowInv h.sequencer.row fun hr h0 => absurd (h.sequencer.boundary hr) h0

/-- A state of the row invariant that stands at a boundary if it runs meets the invariant of the step. -/
theorem State.RowInv.inv {s : State} (h : s.RowInv) (hb : s.status = .running → s.mpc = 0) : s.Inv :=
  ⟨h.params, h.registers, h.stack, h.memory, h.buffers, ⟨h.row, hb⟩⟩

namespace State.ValuesSound

variable {s t : State}

/-- The sequencer, the counters and STATUS are no values. -/
theorem of_control (h : s.ValuesSound) (mpc instrCount tickCount : Nat) (status : Status) :
    ({ s with mpc, instrCount, tickCount, status } : State).ValuesSound :=
  ⟨h.params, { h.registers with }, ⟨h.stack.depth, h.stack.words⟩,
    ⟨h.memory.canonical, h.memory.inside, h.memory.cells⟩, ⟨h.buffers.input, h.buffers.output⟩⟩

/-- A state that differs in registers only is sound when they hold Words. -/
theorem of_registers (h : s.ValuesSound)
    (e : (t.params, t.stack, t.mem, t.input, t.output) = (s.params, s.stack, s.mem, s.input, s.output))
    (hr : t.RegistersHoldWords) : t.ValuesSound := by
  obtain ⟨ep, es, em, ei, eo⟩ : t.params = s.params ∧ t.stack = s.stack ∧ t.mem = s.mem ∧ t.input = s.input ∧
    t.output = s.output := by simpa using e
  refine ⟨ep ▸ h.params, hr, ⟨es ▸ h.stack.depth, es ▸ h.stack.words⟩, ⟨em ▸ h.memory.canonical, ?_, ?_⟩, ⟨?_, ?_⟩⟩
  · rw [em, ep]; exact h.memory.inside
  · rw [em]; exact h.memory.cells
  · rw [ei, ep]; exact h.buffers.input
  · rw [eo, ep]; exact h.buffers.output

theorem raise (h : s.ValuesSound) (k : FaultKind) : (s.raise k).ValuesSound := h.of_control _ _ _ _

/-- A read gives a well-formed cell: a listed one, or word 0. -/
theorem cell_wf (h : s.ValuesSound) (a : Nat) : (s.mem.read a).wf = true := by
  obtain e | hl := Memory.read_blank_or_listed s.mem a
  · rw [e]; decide
  · exact h.memory.cells _ hl

theorem memRead_wf (h : s.ValuesSound) {a : Int} {c : Cell} (hc : s.memRead a = .ok c) : c.wf = true :=
  (memRead_eq_ok.mp hc).2 ▸ h.cell_wf _

theorem popped_isWord (h : s.ValuesSound) : OptIsWord s.popped :=
  fun w hw => h.stack.words w (List.mem_of_getLast? hw)

theorem pop (h : s.ValuesSound) : s.pop.ValuesSound where
  params    := h.params
  registers := { h.registers with }
  stack     := ⟨by have := h.stack.depth; simp; omega, fun w hw => h.stack.words w (List.dropLast_subset _ hw)⟩
  memory    := ⟨h.memory.canonical, h.memory.inside, h.memory.cells⟩
  buffers   := ⟨h.buffers.input, h.buffers.output⟩

/-- Pushing a Word below the bound (R45). -/
theorem pushed (h : s.ValuesSound) {w : Int} (hw : IsWord w) (room : s.stack.length < stackDepth) :
    ({ s with stack := s.stack ++ [w] } : State).ValuesSound where
  params    := h.params
  registers := { h.registers with }
  stack     := ⟨by simpa using room, fun v hv => by
    obtain hv | hv := List.mem_append.mp hv
    · exact h.stack.words v hv
    · exact List.mem_singleton.mp hv ▸ hw⟩
  memory    := ⟨h.memory.canonical, h.memory.inside, h.memory.cells⟩
  buffers   := ⟨h.buffers.input, h.buffers.output⟩

/-- Storing LATCH inside the memory (R72, R174). -/
theorem stored (h : s.ValuesSound) (ha : s.addressable s.ar) :
    ({ s with mem := s.mem.write s.ar.toNat s.latch } : State).ValuesSound where
  params    := h.params
  registers := { h.registers with }
  stack     := ⟨h.stack.depth, h.stack.words⟩
  memory    := by
    refine ⟨Memory.write_wf h.memory.canonical _ _, fun p hp => ?_, fun p hp => ?_⟩
    · obtain rfl | hp := Memory.mem_write hp
      · obtain ⟨h0, h1⟩ := ha
        simp only; omega
      · exact h.memory.inside p hp
    · obtain rfl | hp := Memory.mem_write hp
      · exact h.registers.latch
      · exact h.memory.cells p hp
  buffers   := ⟨h.buffers.input, h.buffers.output⟩

/-- Appending codes in range to OUT (R370). -/
theorem emitted (h : s.ValuesSound) {codes : List Nat} (hc : ∀ c ∈ codes, c ≤ s.params.charCodeMax) :
    (s.emitCodes codes).ValuesSound where
  params    := h.params
  registers := { h.registers with }
  stack     := ⟨h.stack.depth, h.stack.words⟩
  memory    := ⟨h.memory.canonical, h.memory.inside, h.memory.cells⟩
  buffers   := ⟨h.buffers.input, fun c hm => (List.mem_append.mp hm).elim (h.buffers.output c) (hc c)⟩

/-- Taking the front code of IN into TOS (R189). -/
theorem codeTaken (h : s.ValuesSound) {c : Nat} {rest : List Nat} (hi : s.input = c :: rest) :
    ({ s with tos := some c, input := rest } : State).ValuesSound := by
  have codes : ∀ d ∈ c :: rest, d ≤ s.params.charCodeMax := hi ▸ h.buffers.input
  have hword : IsWord c := by
    have hmax := h.params.2.2.2
    have hc := codes c (by simp)
    simp only [IsWord, wordMin, wordMax] at hmax ⊢
    omega
  exact
    { params    := h.params
      registers := { h.registers with tos := optIsWord_some.mpr hword }
      stack     := ⟨h.stack.depth, h.stack.words⟩
      memory    := ⟨h.memory.canonical, h.memory.inside, h.memory.cells⟩
      buffers   := ⟨fun d hd => codes d (by simp [hd]), h.buffers.output⟩ }

/-- A completing signal keeps every value in range; PC_INC, which is exact, needs a PC inside the memory (R182, D37). -/
theorem completes {g : Signal} (h : s.ValuesSound) (hpc : g = .pcInc → s.pc < s.params.memSize)
    (hg : Completes s g t) : t.ValuesSound := by
  have regs := h.registers
  have tosWord {w : Int} (hw : s.tos = some w) : IsWord w := regs.tos w hw
  cases hg with
  | arFromPc => exact h.of_registers rfl { regs with ar := regs.pc }
  | arFromTos hw => exact h.of_registers rfl { regs with ar := tosWord hw }
  | memRead hc => exact h.of_registers rfl { regs with latch := h.memRead_wf hc }
  | memWrite ha => exact h.stored ha
  | memLatchTos hw => exact h.of_registers rfl { regs with latch := (Cell.wf_word _).mpr (tosWord hw) }
  | irDecode => exact h.of_registers rfl { regs with ir := decodeCell_wf regs.latch }
  | tosFromAlu => exact h.of_registers rfl { regs with tos := optIsWord_some.mpr regs.aluRes }
  | tosFromBr => exact h.of_registers rfl { regs with tos := regs.br }
  | tosFromMem hw =>
    exact h.of_registers rfl { regs with tos := optIsWord_some.mpr ((Cell.wf_word _).mp (h.memRead_wf hw)) }
  | tosFromArg => exact h.of_registers rfl { regs with tos := regs.ir }
  | tosFromVarAddr _ _ hw => exact h.of_registers rfl { regs with tos := optIsWord_some.mpr hw }
  | pcInc =>
    have room := hpc rfl
    have hmem := h.params.2.1
    have hpc := regs.pc
    exact h.of_registers rfl { regs with pc := by simp only [IsWord, wordMin, wordMax] at *; omega }
  | dsPushNone => exact h
  | dsPushSome hw room => exact h.pushed (tosWord hw) room
  | dsPop => exact h.pop
  | aluLoad => exact h.pop.of_registers rfl { regs with aluA := regs.tos, aluB := h.popped_isWord }
  | aluOp => exact h.of_registers rfl { regs with aluRes := wrap_isWord _ }
  | brFromPop => exact h.pop.of_registers rfl { regs with br := h.popped_isWord }
  | ioPrint => exact h.emitted fun c hc => (decimal_le _ c hc).trans h.params.2.2.1
  | ioReadNone => exact h.of_registers rfl { regs with tos := optIsWord_some.mpr (by decide) }
  | ioReadSome hi => exact h.codeTaken hi
  | ioEmit _ hc => exact h.emitted (by simpa using hc)
  | jumpIfZStay => exact h
  | jumpIfZTake _ hw => exact h.of_registers rfl { regs with pc := tosWord hw }
  | jump hw => exact h.of_registers rfl { regs with pc := tosWord hw }
  | mpcNext => exact h.of_control _ _ _ _
  | mpcZero => exact h.of_control _ _ _ _
  | mpcOpcode => exact h.of_control _ _ _ _
  | halt => exact h.of_control _ _ _ _

/-- Every signal keeps every value in range, a fault included. -/
theorem execSignal {g : Signal} (h : s.ValuesSound) (hpc : g = .pcInc → s.pc < s.params.memSize) :
    (execSignal g s).ValuesSound := by
  obtain hg | ⟨k, hg⟩ := execSignal_cases g s
  · exact h.completes hpc hg
  · rw [hg]; exact h.raise k

end State.ValuesSound

end Sys2Proof.Machine
end

section
/-! SUPPORT. What one row does to MPC and PC, and what the fixed table guarantees of every row: where MPC goes next, how
many rows of its microsequence are left, and that PC_INC meets a PC inside the memory (spec/42_control_unit.md R241,
R245). -/

open Sys2Proof.Statements

namespace Sys2Proof.Machine

/-! ### Where a row leaves MPC -/

/-- The micro-addresses at which a run may go on after a signal in the row `m`: none after HALT, and any first row of an
opcode after MPC_OPCODE. -/
def Signal.nextAddresses (m : Nat) : Signal → List Nat
  | .mpcNext   => [m + 1]
  | .mpcZero   => [0]
  | .mpcOpcode => rowCounts.map fun p => firstRow p.1
  | .halt      => []
  | _          => [m]

theorem firstRow_mem (o : Opcode) : firstRow o ∈ rowCounts.map fun p => firstRow p.1 := by
  cases o <;> decide

/-- A signal that lets the run go on leaves MPC at one of its next addresses; one that ends the run leaves MPC. -/
theorem execSignal_mpc_cases {g : Signal} {s : State} (hr : s.status = .running) :
    ((execSignal g s).status = .running ∧ (execSignal g s).mpc ∈ g.nextAddresses s.mpc) ∨
      ((execSignal g s).status ≠ .running ∧ (execSignal g s).mpc = s.mpc) := by
  obtain h | ⟨k, h⟩ := execSignal_cases g s
  · generalize execSignal g s = t at h
    cases h with
    | halt => exact .inr ⟨nofun, rfl⟩
    | mpcOpcode => exact .inl ⟨hr, firstRow_mem _⟩
    | _ => exact .inl ⟨hr, List.mem_singleton.mpr rfl⟩
  · exact .inr (by simp [h])

/-- No signal but the last sequences (R245 (a)). -/
def sequencesLast (row : Row) : Bool := row.dropLast.all fun g => !g.sequences

/-- Where a run may go on after a whole row: where its last signal sends it. -/
def rowNext (m : Nat) (row : Row) : List Nat := row.getLast?.elim [m] (Signal.nextAddresses m)

/-- A row either completes, MPC then being where its last signal sends it, or ends the run with MPC at the row. -/
theorem runSignals_mpc_cases {row : Row} {s : State} (hl : sequencesLast row = true) (hr : s.status = .running) :
    ((runSignals row s).status = .running ∧ (runSignals row s).mpc ∈ rowNext s.mpc row) ∨
      ((runSignals row s).status ≠ .running ∧ (runSignals row s).mpc = s.mpc) := by
  induction row generalizing s with
  | nil => exact .inl ⟨hr, List.mem_singleton.mpr rfl⟩
  | cons g rest ih =>
    obtain ⟨ht, hm⟩ | ⟨ht, hm⟩ := execSignal_mpc_cases (g := g) hr
    · rw [runSignals_cons_running rfl ht]
      cases rest with
      | nil => exact .inl ⟨ht, hm⟩
      | cons g' rest =>
        obtain ⟨hg, hl⟩ : g.sequences = false ∧ sequencesLast (g' :: rest) = true := by
          simpa [sequencesLast] using hl
        have hm := execSignal_mpc hg s
        simpa [rowNext, hm] using ih hl ht
    · rw [runSignals_cons_stopped rfl ht]
      exact .inr ⟨ht, hm⟩

/-! ### Which rows keep PC, and which may increment it -/

/-- A row without a signal that writes PC leaves PC. -/
theorem runSignals_pc {row : Row} (hrow : ∀ g ∈ row, g.writesPc = false) (s : State) :
    (runSignals row s).pc = s.pc := by
  induction row generalizing s with
  | nil => rfl
  | cons g rest ih =>
    have hpc := execSignal_pc (hrow g (by simp)) s
    by_cases ht : (execSignal g s).status = .running
    · rw [runSignals_cons_running rfl ht, ih (fun g' hg' => hrow g' (by simp [hg'])), hpc]
    · rw [runSignals_cons_stopped rfl ht, hpc]

theorem runSignals_params (row : Row) (s : State) : (runSignals row s).params = s.params := by
  induction row generalizing s with
  | nil => rfl
  | cons g rest ih =>
    have hp := execSignal_params g s
    by_cases ht : (execSignal g s).status = .running
    · rw [runSignals_cons_running rfl ht, ih, hp]
    · rw [runSignals_cons_stopped rfl ht, hp]

/-- Every PC_INC of the row meets a PC inside the memory: PC is inside when the row begins (`room`), and no signal
before has written it. -/
def incrementsInside (room : Bool) : Row → Bool
  | []        => true
  | g :: rest => (g != .pcInc || room) && incrementsInside (room && !g.writesPc) rest

/-- Such a row keeps every value in range. -/
theorem State.ValuesSound.runSignals {row : Row} {room : Bool} {s : State} (h : s.ValuesSound)
    (hi : incrementsInside room row = true) (hpc : room = true → s.pc < s.params.memSize) :
    (runSignals row s).ValuesSound := by
  induction row generalizing s room with
  | nil => exact h.of_control _ _ _ _
  | cons g rest ih =>
    obtain ⟨hg, hrest⟩ : (g ≠ .pcInc ∨ room = true) ∧ incrementsInside (room && !g.writesPc) rest = true := by
      simpa [incrementsInside] using hi
    have ht := h.execSignal (g := g) fun e => hpc (hg.resolve_left (not_not_intro e))
    by_cases hs : (Machine.execSignal g s).status = .running
    · rw [runSignals_cons_running rfl hs]
      refine ih ht hrest fun hroom => ?_
      obtain ⟨hroom, hw⟩ : room = true ∧ g.writesPc = false := by simpa using hroom
      rw [execSignal_pc hw, execSignal_params]
      exact hpc hroom
    · rwa [runSignals_cons_stopped rfl hs]

/-! ### The table -/

/-- The rows left of an instruction at micro-address `m`, the row `m` included: none at the boundary; at most five after
row 1, which may dispatch SWAP or SAVE_VAR; in a microsequence, those up to the first that does not send MPC to the next
row. -/
def rowsLeft (m : Nat) : Nat :=
  match m with
  | 0 => 0
  | 1 => 6
  | m => ((table.drop m).takeWhile fun row => decide (row.getLast? = some .mpcNext)).length + 1

/-- Every row sequences last (R245 (a)). -/
theorem table_sequencesLast : ∀ row ∈ table, sequencesLast row = true := by decide

/-- MPC stays a row of the table, and inside an instruction each row brings its end nearer. -/
theorem table_next :
    ∀ m < nURows, ∀ row ∈ table[m]?, ∀ n ∈ rowNext m row, n < nURows ∧ (m ≠ 0 → rowsLeft n < rowsLeft m) := by
  decide

theorem rowsLeft_le_six : ∀ m < nURows, rowsLeft m ≤ 6 := by decide

theorem rowsLeft_pos {m : Nat} (h : m ≠ 0) : 0 < rowsLeft m := by
  unfold rowsLeft
  split <;> omega

/-- The rows a state still takes in its instruction: none once the run has ended. -/
def State.rowsToGo (s : State) : Nat := if s.status = .running then rowsLeft s.mpc else 0

theorem State.rowsToGo_running {s : State} (hr : s.status = .running) : s.rowsToGo = rowsLeft s.mpc := if_pos hr

theorem State.rowsToGo_le_six {s : State} (hm : s.mpc < nURows) : s.rowsToGo ≤ 6 := by
  unfold State.rowsToGo
  split
  · exact rowsLeft_le_six _ hm
  · exact Nat.zero_le _

/-- Inside an instruction of a running state a row is left. -/
theorem State.rowsToGo_pos {s : State} (hm : s.mpc ≠ 0) (hr : s.status = .running) : 0 < s.rowsToGo :=
  State.rowsToGo_running hr ▸ rowsLeft_pos hm

/-- The rows at which PC need not be inside the memory: row 0, which checks it, and row 61, entered after the PC_INC of
JZS (D37). -/
abbrev PcOutside (m : Nat) : Prop := m = 0 ∨ m = 61

/-- PC_INC stands only where PC is still inside the memory. -/
theorem table_incrementsInside :
    ∀ m < nURows, ∀ row ∈ table[m]?, incrementsInside (decide (¬ PcOutside m)) row = true := by decide

/-- A row that leads to one where PC must be inside the memory writes no PC, and does not come from row 61. -/
theorem table_keepsPc :
    ∀ m < nURows, ∀ row ∈ table[m]?, ∀ n ∈ rowNext m row, ¬ PcOutside n →
      m ≠ 61 ∧ ∀ g ∈ row, g.writesPc = false := by decide

end Sys2Proof.Machine
end

section
/-! SUPPORT. One row as a step: it keeps the row invariant, it brings the end of its instruction nearer, and a step of
the model is such rows up to that end (spec/42_control_unit.md R233, R242). -/

open Sys2Proof.Statements

namespace Sys2Proof.Machine

theorem table_row {m : Nat} (h : m < nURows) : ∃ row, table[m]? = some row :=
  ⟨_, List.getElem?_eq_getElem (by rwa [table_length])⟩

/-- Row 0 on a PC outside the memory faults in its MEM_READ (R72, R350). -/
theorem stepRow_zero_outside {s : State} (hr : s.status = .running) (hm : s.mpc = 0) (h : ¬ s.addressable s.pc) :
    stepRow s = { s with ar := s.pc, status := .fault .memoryOutOfRange } := by
  rw [stepRow_at (row := [.arFromPc, .memRead, .mpcNext]) (by rw [hm]; rfl),
    runSignals_cons_running (t := { s with ar := s.pc }) rfl hr]
  have hfault : signalEffect .memRead { s with ar := s.pc } = .error .memoryOutOfRange :=
    bind_eq_error.mpr (.inl (memRead_of_not_addressable h))
  exact runSignals_cons_stopped (execSignal_of_error hfault) nofun

/-- Row 1 on a latched Word faults: its record has no opcode to dispatch (R106, R235, R408). -/
theorem stepRow_one_word {s : State} {w : Int} (hr : s.status = .running) (hm : s.mpc = 1) (h : s.latch = .word w) :
    stepRow s = { s with ir := .record none (some w) none, status := .fault .noOpcode } := by
  rw [stepRow_at (row := [.irDecode, .mpcOpcode]) (by rw [hm]; rfl),
    runSignals_cons_running (t := { s with ir := .record none (some w) none })
      (by simp [execSignal, signalEffect, h, decodeCell]) hr]
  exact runSignals_cons_stopped rfl nofun

/-- An instruction is the one its opcode, arg and tag make up (R100). -/
@[simp] theorem ofParts_parts (i : Instr) : Instr.ofParts i.opcode i.arg i.sourceTag = i := by
  cases i <;> rfl

theorem addressable_of_row_zero {s : State} (hr : s.status = .running) (hm : s.mpc = 0)
    (ht : (stepRow s).status = .running) : s.addressable s.pc := by
  by_contra h
  rw [stepRow_zero_outside hr hm h] at ht
  cases ht

/-- A row leaves MPC at a row of the table, and inside an instruction it leaves fewer rows to go. -/
theorem stepRow_mpc {s : State} (hr : s.status = .running) (hm : s.mpc < nURows) :
    (stepRow s).mpc < nURows ∧ (s.mpc ≠ 0 → (stepRow s).rowsToGo < s.rowsToGo) := by
  obtain ⟨row, hrow⟩ := table_row hm
  rw [stepRow_at hrow]
  obtain ⟨ht, hn⟩ | ⟨ht, hn⟩ :=
    runSignals_mpc_cases (table_sequencesLast row (List.mem_of_getElem? hrow)) hr
  · rw [State.rowsToGo_running ht, State.rowsToGo_running hr]
    exact table_next _ hm row hrow _ hn
  · refine ⟨hn ▸ hm, fun h0 => ?_⟩
    rw [State.rowsToGo, if_neg ht]
    exact State.rowsToGo_pos h0 hr

/-- Where a row leads to one that needs PC inside the memory, PC is inside (R245 (b), D37). -/
theorem stepRow_pcRoom {s : State} (h : s.RowInv) (hr : s.status = .running) (ht : (stepRow s).status = .running)
    (hn : ¬ PcOutside (stepRow s).mpc) : (stepRow s).pc < (stepRow s).params.memSize := by
  have inside : s.mpc ≠ 61 → s.pc < s.params.memSize := fun h61 => by
    by_cases h0 : s.mpc = 0
    · exact (addressable_of_row_zero hr h0 ht).2
    · exact h.pcRoom hr h0 h61
  obtain ⟨row, hrow⟩ := table_row h.row
  rw [stepRow_at hrow] at ht hn ⊢
  obtain ⟨-, hnext⟩ | ⟨hs, -⟩ :=
    runSignals_mpc_cases (table_sequencesLast row (List.mem_of_getElem? hrow)) hr
  · obtain ⟨h61, hkeep⟩ := table_keepsPc _ h.row row hrow _ hnext hn
    rw [runSignals_pc hkeep, runSignals_params]
    exact inside h61
  · exact absurd ht hs

/-- One row keeps the row invariant. -/
theorem stepRow_keeps_rowInv {s : State} (h : s.RowInv) (hr : s.status = .running) : (stepRow s).RowInv := by
  obtain ⟨row, hrow⟩ := table_row h.row
  have values : (stepRow s).ValuesSound := by
    rw [stepRow_at hrow]
    refine h.values.runSignals (table_incrementsInside _ h.row row hrow) fun hroom => ?_
    obtain ⟨h0, h61⟩ := not_or.mp (of_decide_eq_true hroom)
    exact h.pcRoom hr h0 h61
  exact values.rowInv (stepRow_mpc hr h.row).1 fun ht h0 h61 => stepRow_pcRoom h hr ht (not_or.mpr ⟨h0, h61⟩)

/-- Ending the run at the ceiling keeps the row invariant. -/
theorem rowInv_limit {s : State} (h : s.RowInv) : ({ s with status := .limit } : State).RowInv :=
  (h.values.of_control s.mpc s.instrCount s.tickCount .limit).rowInv h.row nofun

/-! ### Runs of rows -/

/-- What `finish` does inside an instruction: one row, and then the rest. -/
theorem finish_inside {fuel : Nat} {s : State} (hm : s.mpc ≠ 0) (hr : s.status = .running) :
    finish (fuel + 1) s = finish fuel (stepRow s) := if_neg (by simp [hm, hr])

theorem finish_keeps_rowInv (fuel : Nat) {s : State} (h : s.RowInv) : (finish fuel s).RowInv := by
  induction fuel generalizing s with
  | zero => exact h
  | succ fuel ih =>
    by_cases hs : s.mpc = 0 ∨ s.status ≠ .running
    · rwa [finish_stop hs]
    · obtain ⟨hm, hr⟩ := not_or.mp hs
      rw [finish_inside hm (not_not.mp hr)]
      exact ih (stepRow_keeps_rowInv h (not_not.mp hr))

/-- What a turn of the run loop is in a running state, the ceiling not met: one row (R242). -/
theorem rowStep_row {s : State} (hr : s.status = .running) (hm : s.mpc < nURows)
    (hc : ¬ (s.mpc = 0 ∧ s.params.instrLimit ≤ s.instrCount)) : rowStep s = .next (stepRow s) := by
  simp [rowStep, hr, hm, hc]

theorem rowMachine_run_succ {s t : State} (h : rowStep s = .next t) (n : Nat) :
    rowMachine.run (n + 1) s = rowMachine.run n t := by
  simp only [Host.Core.run, h]

/-- With fuel for the rows to go, `finish` is at most that many turns of the run loop, and it reaches the boundary or
the end of the run. -/
theorem finish_is_rows {fuel : Nat} {s : State} (hm : s.mpc < nURows) (hf : s.rowsToGo ≤ fuel) :
    (∃ n ≤ s.rowsToGo, rowMachine.run n s = .next (finish fuel s)) ∧
      ((finish fuel s).status = .running → (finish fuel s).mpc = 0) := by
  induction fuel generalizing s with
  | zero =>
    refine ⟨⟨0, Nat.zero_le _, rfl⟩, fun hr => ?_⟩
    by_contra h0
    exact absurd (State.rowsToGo_pos h0 hr) (Nat.not_lt.mpr hf)
  | succ fuel ih =>
    by_cases hs : s.mpc = 0 ∨ s.status ≠ .running
    · rw [finish_stop hs]
      exact ⟨⟨0, Nat.zero_le _, rfl⟩, fun hr => hs.resolve_right (not_not_intro hr)⟩
    · obtain ⟨h0, hr⟩ := not_or.mp hs
      have hr := not_not.mp hr
      obtain ⟨hm', hless⟩ := stepRow_mpc hr hm
      have hless := hless h0
      obtain ⟨⟨n, hn, hrun⟩, hend⟩ := ih hm' (by omega)
      rw [finish_inside h0 hr]
      exact ⟨⟨n + 1, by omega, (rowMachine_run_succ (rowStep_row hr hm (by simp [h0])) n).trans hrun⟩, hend⟩

/-- After row 1, dispatch runs the rows of the instruction that IR holds by then, or nothing after a fault (R235). -/
theorem dispatch_after_row_one {t : State} (hr : t.status = .running) (hm : t.mpc = 1) :
    dispatch (stepRow t) = .next (finish nURows (stepRow t)) := by
  cases hl : t.latch with
  | instr i =>
    have entered : (stepRow t).enter i = stepRow t := by rw [stepRow_one hr hm hl]; rfl
    have running : (stepRow t).status = .running := by rw [stepRow_one hr hm hl]; exact hr
    have ir : (stepRow t).ir = .record (some i.opcode) i.arg i.sourceTag := by rw [← entered]; rfl
    simp only [dispatch, running, ir, if_true, ofParts_parts]
    rw [exec_eq_runMicrosequence, runMicrosequence_running i running, entered]
  | word w =>
    have stopped : (stepRow t).status ≠ .running := by rw [stepRow_one_word hr hm hl]; nofun
    rw [finish_stop (.inr stopped)]
    exact if_neg stopped

/-- At a boundary below the ceiling, a step is row 0 and then the rows of the instruction in progress. -/
theorem step_boundary_eq_finish {s : State} (hr : s.status = .running) (hm : s.mpc = 0)
    (hl : s.instrCount < s.params.instrLimit) : step s = .next (finish (nURows + 1) (stepRow s)) := by
  rw [step_boundary hr hm hl]
  by_cases ht : (stepRow s).status = .running
  · have h1 : (stepRow s).mpc = 1 := by
      rw [stepRow_zero hr hm (memRead_of_addressable (addressable_of_row_zero hr hm ht))]
    rw [finish_inside (by omega) ht, ← dispatch_after_row_one ht h1]
    exact congrArg dispatch (if_pos ht)
  · rw [finish_stop (.inr ht)]
    have hfetch : fetch s = stepRow s := if_neg ht
    rw [hfetch]
    exact if_neg ht

/-- What a step is beside the turn of the run loop from the same state: both answer one fault; both end the run at the
ceiling; or the turn is one row, and the step is that row and then the rest of its instruction (R242, R243; logs 2
and 18). -/
theorem step_cases (s : State) :
    (∃ f, step s = .fault f ∧ rowStep s = .fault f) ∨
      (step s = .next { s with status := .limit } ∧ rowStep s = .next { s with status := .limit }) ∨
      (s.status = .running ∧ s.mpc < nURows ∧ rowStep s = .next (stepRow s) ∧
        ∃ fuel ≥ 6, step s = .next (finish fuel (stepRow s))) := by
  cases he : s.ended with
  | some f => exact .inl ⟨f, by simp [step, stepInstruction, he], by simp [rowStep, he]⟩
  | none =>
    have hr := ended_eq_none.mp he
    by_cases h0 : s.mpc = 0
    · by_cases hl : s.params.instrLimit ≤ s.instrCount
      · exact .inr (.inl ⟨by simp [step, stepInstruction, he, h0, hl], by simp [rowStep, he, h0, hl]⟩)
      · have hm : s.mpc < nURows := h0 ▸ by decide
        exact .inr (.inr ⟨hr, hm, rowStep_row hr hm (by simp [hl]), nURows + 1, by decide,
          step_boundary_eq_finish hr h0 (Nat.not_le.mp hl)⟩)
    · by_cases hm : s.mpc < nURows
      · exact .inr (.inr ⟨hr, hm, rowStep_row hr hm (by simp [h0]), 70, by decide, by
          rw [← finish_inside h0 hr]
          simp [step, stepInstruction, he, h0, hm]⟩)
      · exact .inl ⟨.microAddressOutsideTable, by simp [step, stepInstruction, he, h0, hm],
          by simp [rowStep, he, h0, hm]⟩

end Sys2Proof.Machine
end

section
/-! SUPPORT. What the loader's checks give, and that the state it builds meets both invariants
(spec/30_encoding.md R108; spec/70_reset_and_hazards.md R450 to R453). -/

namespace Sys2Proof.Machine

/-- A completed load passed the checks of R108 and gives the initial state of its program. -/
theorem load_eq_ok {p : Params} {records : List Record} {input : List Nat} {s : State}
    (h : load p records input = .ok s) :
    ∃ prog, s = State.initial p prog input ∧ (∀ i ∈ prog, i.wellFormed = true) ∧ prog.length < p.memSize ∧
      ∀ c ∈ input, c ≤ p.charCodeMax := by
  unfold load at h
  split at h
  case h_1 => cases h
  case h_2 prog _ =>
    split_ifs at h with _ _ hwf hsize _ hinput
    cases h
    exact ⟨prog, rfl, by simpa using hwf, by omega, by simpa using hinput⟩

/-- The entries of a placed program: its instructions, at the addresses from the first on. -/
theorem mem_placeFrom {a : Nat} {prog : List Instr} {p : Nat × Cell} (h : p ∈ placeFrom a prog) :
    a ≤ p.1 ∧ p.1 < a + prog.length ∧ ∃ i ∈ prog, p.2 = .instr i := by
  induction prog generalizing a with
  | nil => cases h
  | cons i rest ih =>
    obtain rfl | h := List.mem_cons.mp h
    · exact ⟨le_rfl, by simp, i, by simp, rfl⟩
    · obtain ⟨hlow, hhigh, j, hj, hp⟩ := ih h
      exact ⟨by omega, by rw [List.length_cons]; omega, j, by simp [hj], hp⟩

theorem placeFrom_rising (a : Nat) (prog : List Instr) :
    (placeFrom a prog).Pairwise fun p q => p.1 < q.1 := by
  induction prog generalizing a with
  | nil => exact .nil
  | cons i rest ih => exact .cons (fun q hq => (mem_placeFrom hq).1) (ih (a + 1))

/-- The image is in canonical form: the header cell, which is not word 0, and then the program (R452). -/
theorem image_wf (prog : List Instr) : (image prog).wf := by
  refine ⟨.cons (fun q hq => (mem_placeFrom hq).1) (placeFrom_rising 1 prog), fun q hq => ?_⟩
  obtain rfl | hq := List.mem_cons.mp hq
  · simp; omega
  · obtain ⟨-, -, i, -, hp⟩ := mem_placeFrom hq
    simp [hp]

/-- The image of an accepted program is sound in its memory. -/
theorem initial_memorySound {p : Params} {prog : List Instr} (input : List Nat) (hp : p.wf)
    (hprog : ∀ i ∈ prog, i.wellFormed = true) (hsize : prog.length < p.memSize) :
    (State.initial p prog input).MemorySound := by
  refine ⟨image_wf prog, fun q hq => ?_, fun q hq => ?_⟩
  · obtain rfl | hq := List.mem_cons.mp hq
    · exact Nat.zero_lt_of_lt hsize
    · have := (mem_placeFrom hq).2.1
      exact (by omega : q.1 < p.memSize)
  · obtain rfl | hq := List.mem_cons.mp hq
    · have hmem := hp.2.1
      simp only [Cell.wf_word, IsWord, wordMin, wordMax] at *
      omega
    · obtain ⟨-, -, i, hi, hcell⟩ := mem_placeFrom hq
      rw [hcell]
      exact hprog i hi

/-- The reset values of the registers are Words (R60). -/
theorem reset_registersHoldWords : State.reset.RegistersHoldWords :=
  ⟨by decide, by decide, by decide, by decide, by decide, by decide, by decide, by decide, by decide⟩

/-- The initial state of an accepted program meets the invariant of the step. -/
theorem initial_inv {p : Params} {prog : List Instr} {input : List Nat} (hp : p.wf)
    (hprog : ∀ i ∈ prog, i.wellFormed = true) (hsize : prog.length < p.memSize)
    (hinput : ∀ c ∈ input, c ≤ p.charCodeMax) : (State.initial p prog input).Inv where
  params    := hp
  registers := { reset_registersHoldWords with }
  stack     := ⟨Nat.zero_le _, nofun⟩
  memory    := initial_memorySound input hp hprog hsize
  buffers   := ⟨hinput, nofun⟩
  sequencer := ⟨Nat.zero_lt_succ _, fun _ => rfl⟩

end Sys2Proof.Machine
end

section
/-! PROOFS. The statements of spec/00_scope.md. -/

open Sys2Proof.Machine

namespace Sys2Proof.Statements

/-- Settles O19: a step is rows, each of which keeps the row invariant, up to the boundary or the end of the run. -/
theorem stepKeepsInvariant : Obligations.StepKeepsInvariant := by
  unfold Obligations.StepKeepsInvariant
  intro s t h hstep
  obtain ⟨f, hf, -⟩ | ⟨hlimit, -⟩ | ⟨hr, hm, -, fuel, hfuel, hrows⟩ := step_cases s
  · cases hf.symm.trans hstep
  · cases hlimit.symm.trans hstep
    exact (rowInv_limit h.rowInv).inv nofun
  · cases hrows.symm.trans hstep
    have hm' := (stepRow_mpc hr hm).1
    have hrow := finish_keeps_rowInv fuel (stepRow_keeps_rowInv h.rowInv hr)
    exact hrow.inv (finish_is_rows hm' ((State.rowsToGo_le_six hm').trans hfuel)).2

/-- Settles O20: a turn of the run loop is one row of the table, or ends the run at the ceiling. -/
theorem rowStepKeepsRowInvariant : Obligations.RowStepKeepsRowInvariant := by
  unfold Obligations.RowStepKeepsRowInvariant
  intro s t h hstep
  obtain ⟨f, -, hf⟩ | ⟨-, hlimit⟩ | ⟨hr, -, hrow, -⟩ := step_cases s
  · cases hf.symm.trans hstep
  · cases hlimit.symm.trans hstep
    exact rowInv_limit h
  · cases hrow.symm.trans hstep
    exact stepRow_keeps_rowInv h hr

/-- Settles O17: an accepted program's image is canonical and inside the memory, and every other piece has its reset
value, so the state meets the invariant of the step, which at a boundary gives that of the row step. -/
theorem loadedStateMeetsBothInvariants : Obligations.LoadedStateMeetsBothInvariants := by
  unfold Obligations.LoadedStateMeetsBothInvariants
  intro p records input s hp hload
  obtain ⟨prog, rfl, hprog, hsize, hinput⟩ := load_eq_ok hload
  have inv := initial_inv hp hprog hsize hinput
  exact ⟨inv, inv.rowInv⟩

/-- Settles O26: the first row, and then at most six, since each row inside an instruction brings its end nearer. -/
theorem stepIsRowsInSequence : Obligations.StepIsRowsInSequence := by
  unfold Obligations.StepIsRowsInSequence
  intro s
  obtain ⟨f, hstep, hrow⟩ | ⟨hstep, hrow⟩ | ⟨hr, hm, hrow, fuel, hfuel, hstep⟩ := step_cases s
  · exact ⟨1, le_rfl, by decide, by simp only [Host.Core.run, hrow, hstep]⟩
  · exact ⟨1, le_rfl, by decide, (rowMachine_run_succ hrow 0).trans hstep.symm⟩
  · have hm' := (stepRow_mpc hr hm).1
    have six := State.rowsToGo_le_six hm'
    obtain ⟨n, hn, hrun⟩ := (finish_is_rows hm' (six.trans hfuel)).1
    exact ⟨n + 1, by omega, by omega, by rw [rowMachine_run_succ hrow, hrun, hstep]⟩

end Sys2Proof.Statements
end

section
/-! SUPPORT. Frames: what relates a state to every later one of a run is shown once of the signals, and holds of rows,
microsequences and steps from then on (spec/10_state.md R59; spec/42_control_unit.md R234, R241). -/

open Sys2Proof.Statements

namespace Sys2Proof.Machine

/-! ### Relations that hold along a run -/

/-- A relation of a state to a later one that composes and does not see MPC, TICK_COUNT and STATUS. -/
structure Frame (R : State → State → Prop) : Prop where
  trans {s t u : State} : R s t → R t u → R s u
  control (s : State) (mpc tickCount : Nat) (status : Status) : R s { s with mpc, tickCount, status }

/-- Where signal `g` completes, the state it leaves is related to the one it met. -/
def Signal.Keeps (R : State → State → Prop) (g : Signal) : Prop := ∀ s t : State, Completes s g t → R s t

section
variable {R : State → State → Prop} (hR : Frame R)
include hR

theorem Frame.refl (s : State) : R s s := hR.control s s.mpc s.tickCount s.status

/-- A fault changes only STATUS (R400), so a signal that keeps the relation keeps it when it faults too. -/
theorem execSignal_frame {g : Signal} (hg : g.Keeps R) (s : State) : R s (execSignal g s) := by
  obtain h | ⟨k, h⟩ := execSignal_cases g s
  · exact hg s _ h
  · rw [h]; exact hR.control s _ _ _

theorem runSignals_frame {row : Row} (hrow : ∀ g ∈ row, g.Keeps R) (s : State) : R s (runSignals row s) := by
  induction row generalizing s with
  | nil => exact hR.control s _ _ _
  | cons g rest ih =>
    have hg := execSignal_frame hR (hrow g (by simp)) s
    by_cases ht : (execSignal g s).status = .running
    · rw [runSignals_cons_running rfl ht]
      exact hR.trans hg (ih (fun g' hg' => hrow g' (by simp [hg'])) _)
    · rwa [runSignals_cons_stopped rfl ht]

theorem stepRow_frame {s : State} {row : Row} (hrow : table[s.mpc]? = some row) (hk : ∀ g ∈ row, g.Keeps R) :
    R s (stepRow s) :=
  stepRow_at hrow ▸ runSignals_frame hR hk s

end

/-! ### The rows that may still run -/

/-- The signals of a microsequence from its row `m` on. -/
def signalsFrom (m : Nat) : List Signal := ((table.drop m).take (rowsLeft m)).flatten

/-- Signal `g` may still run in an instruction at micro-address `m`: any may at row 1, which dispatches. -/
abbrev MayRun (m : Nat) (g : Signal) : Prop := m = 1 ∨ g ∈ signalsFrom m

/-- The signals of a row may run at it. -/
theorem table_mayRun : ∀ m < nURows, ∀ row ∈ table[m]?, m ≠ 0 → ∀ g ∈ row, MayRun m g := by decide

/-- After a row inside an instruction no signals may run that might not before. -/
theorem mayRun_of_next :
    ∀ m < nURows, ∀ row ∈ table[m]?, m ≠ 0 → ∀ n ∈ rowNext m row, n ≠ 1 ∧ ∀ g ∈ signalsFrom n, MayRun m g := by
  decide

/-- The signals of an opcode's microsequence. -/
def microsequence (o : Opcode) : List Signal := signalsFrom (firstRow o)

theorem mayRun_firstRow {o : Opcode} {g : Signal} (h : MayRun (firstRow o) g) : g ∈ microsequence o :=
  h.resolve_left (by cases o <;> decide)

/-- An instruction that gives a next state found the run going on (R57). -/
theorem running_of_exec {i : Instr} {s t : State} (h : exec i s = .next t) : s.status = .running := by
  rw [← ended_eq_none]
  cases he : s.ended with
  | none => rfl
  | some f => cases (exec_ended i he).symm.trans h

theorem exec_of_running (i : Instr) {s : State} (hr : s.status = .running) :
    exec i s = .next (finish nURows (s.enter i)) :=
  (exec_eq_runMicrosequence i s).trans (runMicrosequence_running i hr)

theorem firstRow_lt (o : Opcode) : firstRow o < nURows := by
  cases o <;> decide

section
variable {R : State → State → Prop} (hR : Frame R)
include hR

/-- A microsequence whose signals keep the relation keeps it, from any of its rows on. -/
theorem finish_frame (fuel : Nat) {s : State} (hm : s.mpc < nURows)
    (hk : ∀ g, MayRun s.mpc g → g.Keeps R) : R s (finish fuel s) := by
  induction fuel generalizing s with
  | zero => exact hR.refl s
  | succ fuel ih =>
    by_cases hs : s.mpc = 0 ∨ s.status ≠ .running
    · rw [finish_stop hs]; exact hR.refl s
    · obtain ⟨h0, hr⟩ := not_or.mp hs
      have hr := not_not.mp hr
      obtain ⟨row, hrow⟩ := table_row hm
      rw [finish_inside h0 hr]
      have first := stepRow_frame hR hrow fun g hg => hk g (table_mayRun _ hm row hrow h0 g hg)
      obtain ⟨-, hn⟩ | ⟨ht, -⟩ := runSignals_mpc_cases (table_sequencesLast row (List.mem_of_getElem? hrow)) hr
      · rw [← stepRow_at hrow] at hn
        obtain ⟨h1, later⟩ := mayRun_of_next _ hm row hrow h0 _ hn
        exact hR.trans first (ih (stepRow_mpc hr hm).1 fun g hg => hk g (later g (hg.resolve_left h1)))
      · rw [← stepRow_at hrow] at ht
        rwa [finish_stop (.inr ht)]

theorem exec_frame {i : Instr} {s t : State} (h : exec i s = .next t) (hk : ∀ g ∈ microsequence i.opcode, g.Keeps R) :
    R (s.enter i) t := by
  cases (exec_of_running i (running_of_exec h)).symm.trans h
  exact finish_frame hR _ (firstRow_lt _) fun g hg => hk g (mayRun_firstRow hg)

/-- What every signal keeps, every step keeps. -/
theorem step_frame {s t : State} (h : step s = .next t) (hk : ∀ g : Signal, g.Keeps R) : R s t := by
  obtain ⟨f, hf, -⟩ | ⟨hlimit, -⟩ | ⟨hr, hm, -, fuel, -, hrows⟩ := step_cases s
  · cases hf.symm.trans h
  · cases hlimit.symm.trans h
    exact hR.control s _ _ _
  · cases hrows.symm.trans h
    obtain ⟨row, hrow⟩ := table_row hm
    have first := stepRow_frame hR hrow fun g _ => hk g
    exact hR.trans first (finish_frame hR fuel (stepRow_mpc hr hm).1 fun g _ => hk g)

end

/-! ### The fields as frames -/

/-- The pieces of state (10_state.md R30) but PC and the sequencer's own, MPC, TICK_COUNT and STATUS. -/
inductive Field where
  | ar | ir | br | tos | aluA | aluB | aluRes | flagN | flagZ | flagV | stack | mem | latch | input | output
  | instrCount | params
  deriving DecidableEq, Repr

/-- The field has in `t` the value it has in `s`. -/
def Field.Same (f : Field) (s t : State) : Prop :=
  match f with
  | .ar         => t.ar = s.ar
  | .ir         => t.ir = s.ir
  | .br         => t.br = s.br
  | .tos        => t.tos = s.tos
  | .aluA       => t.aluA = s.aluA
  | .aluB       => t.aluB = s.aluB
  | .aluRes     => t.aluRes = s.aluRes
  | .flagN      => t.flagN = s.flagN
  | .flagZ      => t.flagZ = s.flagZ
  | .flagV      => t.flagV = s.flagV
  | .stack      => t.stack = s.stack
  | .mem        => t.mem = s.mem
  | .latch      => t.latch = s.latch
  | .input      => t.input = s.input
  | .output     => t.output = s.output
  | .instrCount => t.instrCount = s.instrCount
  | .params     => t.params = s.params

/-- The fields a signal may write (41_datapath_signals.md R171 to R192, 42_control_unit.md R235). -/
def Signal.writes : Signal → List Field
  | .arFromPc | .arFromTos => [.ar]
  | .memRead | .memLatchTos => [.latch]
  | .memWrite => [.mem]
  | .irDecode => [.ir]
  | .tosFromAlu | .tosFromBr | .tosFromMem | .tosFromArg | .tosFromVarAddr => [.tos]
  | .dsPush | .dsPop => [.stack]
  | .aluLoad => [.aluA, .aluB, .stack]
  | .aluOp _ => [.aluRes, .flagN, .flagZ, .flagV]
  | .brFromPop => [.br, .stack]
  | .ioPrint | .ioEmit => [.output]
  | .ioRead => [.tos, .input]
  | .mpcOpcode => [.instrCount]
  | .pcInc | .jumpIfZ | .jump | .mpcNext | .mpcZero | .halt | .invalid => []

theorem Field.frame (f : Field) : Frame f.Same := by
  cases f <;> exact ⟨fun h h' => h'.trans h, fun _ _ _ _ => rfl⟩

/-- A signal keeps every field that it is not said to write: in each way it can complete, each field is listed, or is
copied from the state before. -/
theorem Signal.keeps_same {g : Signal} {f : Field} (hf : f ∉ g.writes) : g.Keeps f.Same := by
  intro s t h
  cases h <;> cases f <;> simp [Signal.writes, Field.Same] at hf ⊢

/-- No signal of the opcode's microsequence writes the field. -/
abbrev Leaves (o : Opcode) (f : Field) : Prop := ∀ g ∈ microsequence o, f ∉ g.writes

theorem exec_same {i : Instr} {s t : State} (h : exec i s = .next t) (f : Field) (hf : Leaves i.opcode f) :
    f.Same (s.enter i) t :=
  exec_frame f.frame h fun g hg => Signal.keeps_same (hf g hg)

/-! ### What whole classes of instructions leave -/

section
variable {i : Instr} {s t : State} (h : exec i s = .next t)
include h

/-- IR holds the instruction to its end, and no instruction counts itself or writes the parameters (R30, R235). -/
theorem exec_common_frame :
    t.ir = .record (some i.opcode) i.arg i.sourceTag ∧ t.instrCount = s.instrCount ∧ t.params = s.params := by
  have leaves : ∀ o, ∀ f ∈ [Field.ir, .instrCount, .params], Leaves o f := by
    intro o
    cases o <;> decide
  have keep f hf := exec_same h f (leaves _ f hf)
  exact ⟨keep .ir (by decide), keep .instrCount (by decide), keep .params (by decide)⟩

/-- Only the nine arithmetic and comparison instructions write the ALU's registers and flags (R41). -/
theorem exec_alu_frame (hi : i.opcode ∉ aluOpcodes) :
    t.aluA = s.aluA ∧ t.aluB = s.aluB ∧ t.aluRes = s.aluRes ∧ t.flagN = s.flagN ∧ t.flagZ = s.flagZ ∧
      t.flagV = s.flagV := by
  have leaves : ∀ o ∉ aluOpcodes, ∀ f ∈ [Field.aluA, .aluB, .aluRes, .flagN, .flagZ, .flagV], Leaves o f := by
    intro o
    cases o <;> decide
  have keep f hf := exec_same h f (leaves _ hi f hf)
  exact ⟨keep .aluA (by decide), keep .aluB (by decide), keep .aluRes (by decide), keep .flagN (by decide),
    keep .flagZ (by decide), keep .flagV (by decide)⟩

/-- Only SAVE_VAR writes memory (R331). -/
theorem exec_mem_frame (hi : i.opcode ≠ .saveVar) : t.mem = s.mem := by
  have leaves : ∀ o ≠ Opcode.saveVar, Leaves o .mem := by
    intro o
    cases o <;> decide
  exact exec_same h .mem (leaves _ hi)

end

end Sys2Proof.Machine
end

section
/-! SUPPORT. How the microsequences begin that pop their operands, and what a binary operation comes to
(spec/42_control_unit.md R241; spec/43_arithmetic.md R270). -/

open Sys2Proof.Statements

namespace Sys2Proof.Machine

theorem firstRow_ne_zero (o : Opcode) : firstRow o ≠ 0 := by
  cases o <;> decide

/-- An instruction is its first row and then the rest of its rows. -/
theorem exec_eq_firstRow (i : Instr) {s : State} {row : Row} (hr : s.status = .running)
    (hrow : table[firstRow i.opcode]? = some row) :
    exec i s = .next (finish 70 (runSignals row (s.enter i))) := by
  rw [exec_of_running i hr]
  exact congrArg _ (finish_row (firstRow_ne_zero _) hr hrow)

/-- HALT is one row, which ends the run and so is no tick (R353). -/
theorem exec_halt {i : Instr} {s : State} (hi : i.opcode = .halt) (hr : s.status = .running) :
    exec i s = .next { s.enter i with status := .halted } := by
  have row : runSignals [.halt] (s.enter i) = { s.enter i with status := .halted } := runSignals_cons_stopped rfl nofun
  rw [exec_eq_firstRow i hr (row := [.halt]) (by rw [hi]; rfl), row]
  exact congrArg _ (finish_stop (.inr nofun))

/-! ### Instructions that pop into BR first -/

/-- The state after the first row of `i` where that is `brFromPop, mpcNext`. -/
def State.topTaken (s : State) (i : Instr) : State :=
  { (s.enter i).pop with br := s.popped, mpc := firstRow i.opcode + 1, tickCount := s.tickCount + 1 }

theorem exec_eq_topTaken {i : Instr} {s : State} (hr : s.status = .running)
    (hrow : table[firstRow i.opcode]? = some [.brFromPop, .mpcNext]) :
    exec i s = .next (finish 70 (s.topTaken i)) := by
  rw [exec_eq_firstRow i hr hrow]
  simp [runSignals, execSignal, signalEffect, State.topTaken, State.popped, hr]

/-! ### Binary operations -/

/-- The operation of an arithmetic or comparison opcode (43_arithmetic.md R271 to R275; 44_comparison.md R291
to R294). -/
def aluOperation : Opcode → Option AluOp
  | .sum   => some .add
  | .sub   => some .sub
  | .mul   => some .mul
  | .div   => some .div
  | .mod   => some .mod
  | .eq    => some .eq
  | .notEq => some .ne
  | .more  => some .gt
  | .less  => some .lt
  | _      => none

theorem aluOperation_of_mem : ∀ o ∈ aluOpcodes, ∃ k, aluOperation o = some k := by
  simp [aluOpcodes, aluOperation]

/-- The rows of such an opcode are the four of R270. -/
theorem table_binary {o : Opcode} {k : AluOp} (h : aluOperation o = some k) :
    ∀ j < 4, table[firstRow o + j]? = (binaryRows k)[j]? := by
  cases o <;> cases h <;> decide

/-- The state in which a binary operation reaches its ALU_OP: the operands are popped, the top into ALU_A. -/
def State.operandsTaken (s : State) (i : Instr) : State :=
  { (s.enter i).pop.pop with
    br        := s.popped
    tos       := s.popped
    aluA      := s.popped
    aluB      := s.pop.popped
    mpc       := firstRow i.opcode + 2
    tickCount := s.tickCount + 2 }

/-- The state after its third row, `r` being the exact result. -/
def State.resultTaken (s : State) (i : Instr) (r : Int) : State :=
  { (s.operandsTaken i).setAlu r with
    tos := some (wrap r), mpc := firstRow i.opcode + 3, tickCount := s.tickCount + 3 }

/-- The state in which it completes. -/
def State.binaryDone (s : State) (i : Instr) (r : Int) : State :=
  { s.resultTaken i r with
    stack := s.stack.dropLast.dropLast ++ [wrap r], pc := s.pc + 1, mpc := 0, tickCount := s.tickCount + 4 }

/-- Two operands popped from a stack within its bound leave room for the result (R47). -/
theorem room_of_operands {s : State} {b : Int} (depth : s.stack.length ≤ stackDepth) (hb : s.pop.popped = some b) :
    s.stack.dropLast.dropLast.length < stackDepth := by
  have below : 0 < s.stack.dropLast.length := List.length_pos_of_mem (List.mem_of_getLast? hb)
  rw [List.length_dropLast] at below ⊢
  rw [List.length_dropLast]
  omega

section
variable {i : Instr} {k : AluOp} {s : State} (hk : aluOperation i.opcode = some k) (hr : s.status = .running)
include hk hr

theorem exec_eq_operandsTaken : exec i s = .next (finish 69 (s.operandsTaken i)) := by
  have row : table[(s.topTaken i).mpc]? = some [.tosFromBr, .aluLoad, .mpcNext] := table_binary hk 1 (by decide)
  rw [exec_eq_topTaken hr (table_binary hk 0 (by decide)),
    finish_row (s := s.topTaken i) (Nat.succ_ne_zero _) hr row]
  simp [runSignals, execSignal, signalEffect, State.topTaken, State.operandsTaken, State.popped, hr]

/-- A fault of the operation ends the run with no ALU result or flag written (R147, R194). -/
theorem exec_binary_of_error {e : FaultKind} (he : (s.operandsTaken i).aluOp k = .error e) :
    exec i s = .next ((s.operandsTaken i).raise e) := by
  have row : table[(s.operandsTaken i).mpc]? = some [.aluOp k, .tosFromAlu, .mpcNext] :=
    table_binary hk 2 (by decide)
  rw [exec_eq_operandsTaken hk hr, finish_row (s := s.operandsTaken i) (Nat.succ_ne_zero _) hr row,
    runSignals_cons_stopped (execSignal_of_error (g := .aluOp k) he) nofun]
  exact congrArg _ (finish_stop (.inr nofun))

/-- Where the operation completes, it goes on with its result in TOS. -/
theorem exec_eq_resultTaken {r : Int} (ho : (s.operandsTaken i).aluOp k = .ok ((s.operandsTaken i).setAlu r)) :
    exec i s = .next (finish 68 (s.resultTaken i r)) := by
  have row : table[(s.operandsTaken i).mpc]? = some [.aluOp k, .tosFromAlu, .mpcNext] :=
    table_binary hk 2 (by decide)
  rw [exec_eq_operandsTaken hk hr, finish_row (s := s.operandsTaken i) (Nat.succ_ne_zero _) hr row,
    runSignals_cons_running (execSignal_of_ok (g := .aluOp k) ho) hr]
  simp [runSignals, execSignal, signalEffect, State.operandsTaken, State.resultTaken, hr]

/-- Where the stack has room, the result is pushed and PC moves on (R270). -/
theorem exec_binary_of_ok {r : Int} (ho : (s.operandsTaken i).aluOp k = .ok ((s.operandsTaken i).setAlu r))
    (room : s.stack.dropLast.dropLast.length < stackDepth) : exec i s = .next (s.binaryDone i r) := by
  have row : table[(s.resultTaken i r).mpc]? = some [.dsPush, .pcInc, .mpcZero] := table_binary hk 3 (by decide)
  have push : execSignal .dsPush (s.resultTaken i r) =
      { s.resultTaken i r with stack := s.stack.dropLast.dropLast ++ [wrap r] } :=
    execSignal_of_ok (push_of_room (wrap r) room)
  have done : runSignals [.dsPush, .pcInc, .mpcZero] (s.resultTaken i r) = s.binaryDone i r := by
    rw [runSignals_cons_running push hr]
    simp [runSignals, execSignal, signalEffect, State.binaryDone, State.resultTaken, State.operandsTaken, hr]
  rw [exec_eq_resultTaken hk hr ho, finish_row (s := s.resultTaken i r) (Nat.succ_ne_zero _) hr row, done,
    finish_stop (.inl rfl)]

end

end Sys2Proof.Machine
end

section
/-! SUPPORT. What a step comes to at an instruction boundary, and in a run that has ended (spec/10_state.md R57;
spec/42_control_unit.md R235, R241 to R243). -/

open Sys2Proof.Statements

namespace Sys2Proof.Machine

/-! ### Ended runs -/

theorem step_ended {s : State} {f : Fault} (h : s.ended = some f) : step s = .fault f := by
  simp [step, stepInstruction, h]

theorem rowStep_ended {s : State} {f : Fault} (h : s.ended = some f) : rowStep s = .fault f := by
  simp [rowStep, h]

/-! ### The fetch -/

/-- The state after row 0 on an addressable PC, `c` being the cell there (R241). -/
def State.latched (s : State) (c : Cell) : State :=
  { s with ar := s.pc, latch := c, mpc := 1, tickCount := s.tickCount + 1 }

/-- The state in which a fetched instruction is entered, after rows 0 and 1 (R241). -/
def State.fetched (s : State) (i : Instr) : State :=
  { s with
    ar         := s.pc
    latch      := .instr i
    ir         := .record (some i.opcode) i.arg i.sourceTag
    mpc        := firstRow i.opcode
    instrCount := s.instrCount + 1
    tickCount  := s.tickCount + 2 }

/-- The state in which the fetch of a Word faults, at row 1 (20_memory.md R85). -/
def State.wordFetched (s : State) (w : Int) : State :=
  { s with
    ar        := s.pc
    latch     := .word w
    ir        := .record none (some w) none
    mpc       := 1
    tickCount := s.tickCount + 1
    status    := .fault .noOpcode }

theorem step_limit {s : State} (hr : s.status = .running) (hm : s.mpc = 0) (hl : s.params.instrLimit ≤ s.instrCount) :
    step s = .next { s with status := .limit } := by
  simp [step, stepInstruction, hr, hm, hl]

section
variable {s : State} (h : AboutToFetch s)
include h

theorem step_of_instr {i : Instr} (hc : s.memRead s.pc = .ok (.instr i)) : step s = exec i (s.fetched i) := by
  obtain ⟨hr, hm, hl⟩ := h
  have row0 : stepRow s = s.latched (.instr i) := stepRow_zero hr hm hc
  have row1 : stepRow (s.latched (.instr i)) = s.fetched i := stepRow_one hr rfl rfl
  rw [step_boundary hr hm hl, fetch_instr hr hm hc, row0, row1]
  simp [dispatch, State.fetched, hr]

theorem step_of_word {w : Int} (hc : s.memRead s.pc = .ok (.word w)) : step s = .next (s.wordFetched w) := by
  obtain ⟨hr, hm, hl⟩ := h
  have row0 : stepRow s = s.latched (.word w) := stepRow_zero hr hm hc
  have row1 : stepRow (s.latched (.word w)) = s.wordFetched w := stepRow_one_word hr rfl rfl
  rw [step_boundary_eq_finish hr hm hl, row0, finish_inside (s := s.latched _) Nat.one_ne_zero hr, row1]
  exact congrArg _ (finish_stop (.inr nofun))

theorem step_of_outside (ha : ¬ s.addressable s.pc) :
    step s = .next { s with ar := s.pc, status := .fault .memoryOutOfRange } := by
  obtain ⟨hr, hm, hl⟩ := h
  rw [step_boundary_eq_finish hr hm hl, stepRow_zero_outside hr hm ha]
  exact congrArg _ (finish_stop (.inr nofun))

end

/-- What a step from a boundary leads to: the ceiling, one of the two faults of the fetch, or what the fetched
instruction gives. -/
theorem step_boundary_cases {s t : State} (hm : s.mpc = 0) (h : step s = .next t) :
    t = { s with status := .limit } ∨ t = { s with ar := s.pc, status := .fault .memoryOutOfRange } ∨
      (∃ w, t = s.wordFetched w) ∨
      ∃ i, s.memRead s.pc = .ok (.instr i) ∧ exec i (s.fetched i) = .next t := by
  cases he : s.ended with
  | some f => cases (step_ended he).symm.trans h
  | none =>
    have hr := ended_eq_none.mp he
    by_cases hl : s.params.instrLimit ≤ s.instrCount
    · cases (step_limit hr hm hl).symm.trans h
      exact .inl rfl
    · have ready : AboutToFetch s := ⟨hr, hm, Nat.not_le.mp hl⟩
      by_cases ha : s.addressable s.pc
      · cases hc : s.mem.read s.pc.toNat with
        | word w =>
          cases (step_of_word ready (memRead_eq_ok.mpr ⟨ha, hc⟩)).symm.trans h
          exact .inr (.inr (.inl ⟨w, rfl⟩))
        | instr i =>
          have hi := memRead_eq_ok.mpr ⟨ha, hc⟩
          exact .inr (.inr (.inr ⟨i, hi, (step_of_instr ready hi).symm.trans h⟩))
      · cases (step_of_outside ready ha).symm.trans h
        exact .inr (.inl rfl)

end Sys2Proof.Machine
end

section
/-! SUPPORT. The program a load gives, and what the reads of its image return (spec/30_encoding.md R102, R107, R108;
spec/70_reset_and_hazards.md R452). -/

namespace Sys2Proof.Machine

theorem ordinal_of_ofOrdinal {n : Nat} {o : Opcode} (h : Opcode.ofOrdinal n = some o) : o.ordinal = n := by
  unfold Opcode.ofOrdinal at h
  split at h <;> cases h <;> rfl

/-- A record that decodes is the record of its instruction (R100, R102 to R104). -/
theorem encode_of_decode {r : Record} {i : Instr} (h : decode r = .ok i) : encode i = r := by
  unfold decode at h
  split at h
  case h_1 o ho =>
    have hord := ordinal_of_ofOrdinal ho
    cases h
    cases r
    cases o <;> cases hord <;> rfl
  case h_2 => cases h

/-- Records that all decode are the records of their instructions. -/
theorem map_encode_of_decodeAll {records : List Record} {prog : List Instr} (h : decodeAll records = .ok prog) :
    prog.map encode = records := by
  induction records generalizing prog with
  | nil => cases h; rfl
  | cons r rest ih =>
    unfold decodeAll at h
    split at h
    case h_1 => cases h
    case h_2 i hi =>
      split at h
      case h_1 => cases h
      case h_2 is his =>
        cases h
        rw [List.map_cons, encode_of_decode hi, ih his]

/-- A completed load gives the initial state of the program it decoded, which fits in the memory. -/
theorem decodeAll_of_load {p : Params} {records : List Record} {input : List Nat} {s : State}
    (h : load p records input = .ok s) :
    ∃ prog, decodeAll records = .ok prog ∧ s = State.initial p prog input ∧ prog.length < p.memSize := by
  unfold load at h
  split at h
  case h_1 => cases h
  case h_2 prog hprog =>
    split_ifs at h with _ _ _ hsize
    cases h
    exact ⟨prog, hprog, rfl, by omega⟩

/-- The instruction at index `j` of a program is placed `j` cells after its first. -/
theorem listed_of_placeFrom {prog : List Instr} {j : Nat} {i : Instr} (h : prog[j]? = some i) (a : Nat) :
    (a + j, .instr i) ∈ placeFrom a prog := by
  induction prog generalizing j a with
  | nil => cases h
  | cons i' rest ih =>
    cases j with
    | zero => cases h; exact List.mem_cons_self
    | succ j =>
      have rest := ih (List.getElem?_cons_succ ▸ h) (a + 1)
      rw [Nat.add_right_comm, Nat.add_assoc] at rest
      exact List.mem_cons_of_mem _ rest

theorem image_read_header (prog : List Instr) : (image prog).read 0 = .word (prog.length + 1) := rfl

theorem image_read_instr {prog : List Instr} {j : Nat} {i : Instr} (h : prog[j]? = some i) :
    (image prog).read (j + 1) = .instr i :=
  Memory.read_listed (image_wf prog).1 (List.mem_cons_of_mem _ (Nat.add_comm 1 j ▸ listed_of_placeFrom h 1))

/-- After the program every cell is blank (R452). -/
theorem image_read_after {prog : List Instr} {a : Nat} (h : prog.length < a) : (image prog).read a = .word 0 := by
  refine Memory.read_unlisted fun p hp => ?_
  obtain rfl | hp := List.mem_cons.mp hp
  · simp only; omega
  · have := (mem_placeFrom hp).2.1
    omega

/-- The state right after reset meets the invariant of the step (R60). -/
theorem reset_inv : State.reset.Inv where
  params    := by decide
  registers := reset_registersHoldWords
  stack     := ⟨Nat.zero_le _, nofun⟩
  memory    := ⟨⟨.nil, nofun⟩, nofun, nofun⟩
  buffers   := ⟨nofun, nofun⟩
  sequencer := ⟨Nat.zero_lt_succ _, fun _ => rfl⟩

end Sys2Proof.Machine
end

section
/-! SUPPORT. The frames that are no plain equality of a field: the stack that only grows, memory but for the cell AR
addresses, and the one-way buffers (spec/10_state.md R45, R53, R54; spec/20_memory.md R78). -/

namespace Sys2Proof.Machine

/-! ### The stack -/

theorem pop_empty {s : State} (h : s.stack = []) : s.pop = s := by
  cases s; cases h; rfl

theorem pop_concat {s : State} {S : List Int} {x : Int} (h : s.stack = S ++ [x]) : s.pop = { s with stack := S } := by
  simp [State.pop, h]

/-- The stack of `s` is the lower part of that of `t`. -/
def StackGrows (s t : State) : Prop := s.stack <+: t.stack

theorem stackGrows_frame : Frame StackGrows :=
  ⟨fun h h' => List.IsPrefix.trans h h', fun _ _ _ _ => List.prefix_rfl⟩

/-- The signals that pop (R184, R185, R187). -/
def Signal.pops : Signal → Bool
  | .dsPop | .aluLoad | .brFromPop => true
  | _ => false

theorem Signal.keeps_stackGrows {g : Signal} (hg : g.pops = false) : g.Keeps StackGrows := by
  intro s t h
  cases h with
  | dsPop | aluLoad | brFromPop => cases hg
  | dsPushSome => exact List.prefix_append _ _
  | _ => exact List.prefix_rfl

theorem exec_stack_grows {i : Instr} {s t : State} (h : exec i s = .next t)
    (noPop : ∀ g ∈ microsequence i.opcode, g.pops = false) : s.stack <+: t.stack :=
  exec_frame stackGrows_frame h fun g hg => Signal.keeps_stackGrows (noPop g hg)

/-! ### The memory -/

/-- AR stays, and memory reads as before but at the address in AR. -/
def StoresAtAr (s t : State) : Prop := t.ar = s.ar ∧ ∀ a : Nat, (a : Int) ≠ s.ar → t.mem.read a = s.mem.read a

theorem storesAtAr_frame : Frame StoresAtAr where
  trans := fun ⟨har, hmem⟩ ⟨har', hmem'⟩ =>
    ⟨har'.trans har, fun a ha => (hmem' a (har ▸ ha)).trans (hmem a ha)⟩
  control := fun _ _ _ _ => ⟨rfl, fun _ _ => rfl⟩

/-- Only MEM_WRITE changes memory, at AR (R174). -/
theorem Signal.keeps_storesAtAr {g : Signal} (hg : Field.ar ∉ g.writes) : g.Keeps StoresAtAr := by
  intro s t h
  cases h with
  | arFromPc | arFromTos => simp [Signal.writes] at hg
  | memWrite ha =>
    refine ⟨rfl, fun a hne => Memory.read_write_other _ _ fun e => hne ?_⟩
    rw [e, Int.toNat_of_nonneg ha.1]
  | _ => exact ⟨rfl, fun _ _ => rfl⟩

/-! ### The buffers and the parameters -/

/-- OUT is extended, IN is consumed from its front, the parameters stay. -/
def BuffersAdvance (s t : State) : Prop := s.output <+: t.output ∧ t.input <:+ s.input ∧ t.params = s.params

theorem buffersAdvance_frame : Frame BuffersAdvance where
  trans := fun ⟨hout, hin, hparams⟩ ⟨hout', hin', hparams'⟩ =>
    ⟨hout.trans hout', hin'.trans hin, hparams'.trans hparams⟩
  control := fun _ _ _ _ => ⟨List.prefix_rfl, List.suffix_rfl, rfl⟩

/-- Every signal moves the buffers one way only (R188 to R190). -/
theorem Signal.keeps_buffersAdvance (g : Signal) : g.Keeps BuffersAdvance := by
  intro s t h
  cases h with
  | ioPrint | ioEmit => exact ⟨List.prefix_append _ _, List.suffix_rfl, rfl⟩
  | ioReadSome hi => exact ⟨List.prefix_rfl, hi ▸ List.suffix_cons _ _, rfl⟩
  | _ => exact ⟨List.prefix_rfl, List.suffix_rfl, rfl⟩

/-! ### The rows after the first -/

/-- What the signals from micro-address `m` on keep, the rows from there on keep. -/
theorem finish_frame_from {R : State → State → Prop} (hR : Frame R) {m : Nat} (hm : m < nURows) (h1 : m ≠ 1)
    (hk : ∀ g ∈ signalsFrom m, g.Keeps R) (fuel : Nat) {s : State} (hs : s.mpc = m) : R s (finish fuel s) := by
  subst hs
  exact finish_frame hR fuel hm fun g hg => hk g (hg.resolve_left h1)

/-- After `brFromPop` PRINT and EMIT leave the stack (R371, R373). -/
theorem exec_stack_of_printing {i : Instr} {s t : State} (hi : i.opcode ∈ [Opcode.print, .emit])
    (h : exec i s = .next t) : t.stack = s.stack.dropLast := by
  have rows : ∀ o ∈ [Opcode.print, .emit], table[firstRow o]? = some [.brFromPop, .mpcNext] ∧
      firstRow o + 1 < nURows ∧ firstRow o + 1 ≠ 1 ∧ ∀ g ∈ signalsFrom (firstRow o + 1), Field.stack ∉ g.writes := by
    decide
  obtain ⟨hrow, hm, h1, hk⟩ := rows _ hi
  cases (exec_eq_topTaken (running_of_exec h) hrow).symm.trans h
  exact finish_frame_from Field.stack.frame hm h1 (fun g hg => Signal.keeps_same (hk g hg)) 70 (s := s.topTaken i) rfl

/-- The state after the second row of SAVE_VAR or VAR_ON_TOP on a non-empty stack: the popped address `w` is in AR. -/
def State.addressTaken (s : State) (i : Instr) (w : Int) : State :=
  { s.topTaken i with tos := some w, ar := w, mpc := firstRow i.opcode + 2, tickCount := s.tickCount + 2 }

section
variable {i : Instr} {s : State} (hi : i.opcode ∈ [Opcode.saveVar, .varOnTop]) (hr : s.status = .running)
include hi hr

theorem exec_eq_addressRow :
    exec i s = .next (finish 69 (runSignals [.tosFromBr, .arFromTos, .mpcNext] (s.topTaken i))) := by
  have rows : ∀ o ∈ [Opcode.saveVar, .varOnTop], table[firstRow o]? = some [.brFromPop, .mpcNext] ∧
      table[firstRow o + 1]? = some [.tosFromBr, .arFromTos, .mpcNext] := by decide
  obtain ⟨first, second⟩ := rows _ hi
  rw [exec_eq_topTaken hr first, finish_row (s := s.topTaken i) (Nat.succ_ne_zero _) hr second]

theorem exec_eq_addressTaken {w : Int} (hw : s.popped = some w) :
    exec i s = .next (finish 69 (s.addressTaken i w)) := by
  rw [exec_eq_addressRow hi hr]
  simp [runSignals, execSignal, signalEffect, State.addressTaken, State.topTaken, hw, hr]

/-- Without an address on the stack the instruction faults at its second row (R404). -/
theorem exec_of_no_address (hw : s.popped = none) :
    exec i s = .next (State.raise { s.topTaken i with tos := none } .operandAbsent) := by
  have row : runSignals [.tosFromBr, .arFromTos, .mpcNext] (s.topTaken i) =
      State.raise { s.topTaken i with tos := none } .operandAbsent := by
    simp [runSignals, execSignal, signalEffect, State.topTaken, State.raise, hw, hr]
  rw [exec_eq_addressRow hi hr, row]
  exact congrArg _ (finish_stop (.inr nofun))

end

/-- SAVE_VAR stores at the address it popped, if anywhere (R331). -/
theorem exec_saveVar_mem {i : Instr} {s t : State} (hi : i.opcode = .saveVar) (h : exec i s = .next t) {a : Nat}
    (ha : s.popped ≠ some (a : Int)) : t.mem.read a = s.mem.read a := by
  have hr := running_of_exec h
  have hi' : i.opcode ∈ [Opcode.saveVar, .varOnTop] := by simp [hi]
  cases hw : s.popped with
  | none =>
    cases (exec_of_no_address hi' hr hw).symm.trans h
    rfl
  | some w =>
    cases (exec_eq_addressTaken hi' hr hw).symm.trans h
    have hm : (s.addressTaken i w).mpc = 53 := by simp [State.addressTaken, hi, firstRow]
    have arStays : ∀ g ∈ signalsFrom 53, Field.ar ∉ g.writes := by decide
    obtain ⟨-, reads⟩ := finish_frame_from storesAtAr_frame (by decide) (by decide)
      (fun g hg => Signal.keeps_storesAtAr (arStays g hg)) 69 hm
    exact reads a fun e => ha (hw.trans (congrArg some e.symm))

end Sys2Proof.Machine
end

section
/-! PROOFS. The statements of spec/10_state.md. -/

open Sys2Proof.Machine

namespace Sys2Proof.Statements

/-- Settles O16: the initial memory is the image of the decoded program, read cell by cell; the rest is reset. -/
theorem loadedRunStartsAtReset : Obligations.LoadedRunStartsAtReset := by
  unfold Obligations.LoadedRunStartsAtReset
  intro p records input s hload
  obtain ⟨prog, hprog, rfl, hsize⟩ := decodeAll_of_load hload
  have read {a : Nat} {c : Cell} (ha : a < p.memSize) (hc : (image prog).read a = c) :
      (State.initial p prog input).memRead a = .ok c :=
    memRead_eq_ok.mpr ⟨⟨Int.natCast_nonneg a, Int.ofNat_lt.mpr ha⟩, hc⟩
  refine ⟨prog, (map_encode_of_decodeAll hprog).symm, read (a := 0) (by omega) (image_read_header prog),
    fun j i hj => ?_, fun j hj hjm => read hjm (image_read_after hj), rfl⟩
  have := (List.getElem?_eq_some_iff.mp hj).1
  exact read (by omega) (image_read_instr hj)

/-- Settles O52: no signal of the four rows writes the framed fields; the two pops leave the stack below, on which only
pushes follow; and the one fault within the bound, ALU_OP's, comes before any ALU result. -/
theorem arithmeticAndComparisonFrame : Obligations.ArithmeticAndComparisonFrame := by
  unfold Obligations.ArithmeticAndComparisonFrame
  intro i s t hi h
  have opcodes : ∀ o ∈ aluOpcodes, o ≠ .saveVar ∧ (∀ f ∈ [Field.ar, .latch, .input, .output], Leaves o f) ∧
      firstRow o + 2 < nURows ∧ firstRow o + 2 ≠ 1 ∧ ∀ g ∈ signalsFrom (firstRow o + 2), g.pops = false := by decide
  obtain ⟨hsave, leaves, hm, h1, noPop⟩ := opcodes _ hi
  have keep f hf := exec_same h f (leaves f hf)
  obtain ⟨ir, count, params⟩ := exec_common_frame h
  have hr := running_of_exec h
  obtain ⟨k, hk⟩ := aluOperation_of_mem _ hi
  refine ⟨keep .ar (by decide), keep .latch (by decide), keep .input (by decide), keep .output (by decide), count,
    params, ir, fun a => by rw [exec_mem_frame h hsave], ?_, fun depth stopped => ?_⟩
  · cases (exec_eq_operandsTaken hk hr).symm.trans h
    exact finish_frame_from stackGrows_frame hm h1 (fun g hg => Signal.keeps_stackGrows (noPop g hg)) 69
      (s := s.operandsTaken i) rfl
  · cases ho : (s.operandsTaken i).aluOp k with
    | error e =>
      cases (exec_binary_of_error hk hr ho).symm.trans h
      exact ⟨rfl, rfl, rfl, rfl, rfl⟩
    | ok u =>
      obtain ⟨a, b, -, hb, -, rfl⟩ := aluOp_eq_ok.mp ho
      cases (exec_binary_of_ok hk hr ho (room_of_operands depth hb)).symm.trans h
      exact absurd hr stopped

/-- Settles O53: the microsequences of the four write none of the framed fields, that of DROP neither BR nor TOS, and
that of PUSH pops nothing. -/
theorem stackInstructionsFrame : Obligations.StackInstructionsFrame := by
  unfold Obligations.StackInstructionsFrame
  intro i s t hi h
  have opcodes : ∀ o ∈ [Opcode.dup, .drop, .swap, .push], o ∉ aluOpcodes ∧ o ≠ .saveVar ∧
      (∀ f ∈ [Field.ar, .latch, .input, .output], Leaves o f) ∧ (o = .drop → Leaves o .br ∧ Leaves o .tos) ∧
      (o = .push → Leaves o .br ∧ ∀ g ∈ microsequence o, g.pops = false) := by decide
  obtain ⟨halu, hsave, leaves, drop, push⟩ := opcodes _ hi
  have keep f hf := exec_same h f (leaves f hf)
  obtain ⟨ir, count, params⟩ := exec_common_frame h
  obtain ⟨a, b, res, n, z, v⟩ := exec_alu_frame h halu
  refine ⟨keep .ar (by decide), a, b, res, n, z, v, keep .latch (by decide), keep .input (by decide),
    keep .output (by decide), count, params, ir, fun a => by rw [exec_mem_frame h hsave], fun hdrop => ?_,
    fun hpush => ?_⟩
  · obtain ⟨br, tos⟩ := drop hdrop
    exact ⟨exec_same h .br br, exec_same h .tos tos⟩
  · obtain ⟨br, noPop⟩ := push hpush
    exact ⟨exec_same h .br br, exec_stack_grows h noPop⟩

/-- Settles O54: the microsequences of the three write none of the framed fields; only SAVE_VAR writes memory, at the
address it popped. -/
theorem memoryInstructionsFrame : Obligations.MemoryInstructionsFrame := by
  unfold Obligations.MemoryInstructionsFrame
  intro i s t hi h
  have opcodes : ∀ o ∈ [Opcode.addrOnTop, .saveVar, .varOnTop], o ∉ aluOpcodes ∧ Leaves o .input ∧ Leaves o .output ∧
      (o = .addrOnTop → Leaves o .ar ∧ Leaves o .br) ∧ (o ≠ .saveVar → Leaves o .latch) := by decide
  obtain ⟨halu, input, output, addr, load⟩ := opcodes _ hi
  obtain ⟨ir, count, params⟩ := exec_common_frame h
  obtain ⟨a, b, res, n, z, v⟩ := exec_alu_frame h halu
  refine ⟨a, b, res, n, z, v, exec_same h .input input, exec_same h .output output, count, params, ir,
    fun haddr => ?_, fun hload => ?_, fun hsave a ha => exec_saveVar_mem hsave h ha⟩
  · obtain ⟨ar, br⟩ := addr haddr
    exact ⟨exec_same h .ar ar, exec_same h .br br⟩
  · exact ⟨exec_same h .latch (load hload), fun a => by rw [exec_mem_frame h hload]⟩

/-- Settles O55: the microsequences of the three write none of the framed fields, and that of HALT is one row, which
ends the run. -/
theorem controlInstructionsFrame : Obligations.ControlInstructionsFrame := by
  unfold Obligations.ControlInstructionsFrame
  intro i s t hi h
  have opcodes : ∀ o ∈ [Opcode.jzs, .jmp, .halt], o ∉ aluOpcodes ∧ o ≠ .saveVar ∧
      ∀ f ∈ [Field.ar, .br, .stack, .latch, .input, .output], Leaves o f := by decide
  obtain ⟨halu, hsave, leaves⟩ := opcodes _ hi
  have keep f hf := exec_same h f (leaves f hf)
  obtain ⟨ir, count, params⟩ := exec_common_frame h
  obtain ⟨a, b, res, n, z, v⟩ := exec_alu_frame h halu
  refine ⟨keep .ar (by decide), keep .br (by decide), a, b, res, n, z, v, keep .stack (by decide),
    keep .latch (by decide), keep .input (by decide), keep .output (by decide), count, params, ir,
    fun a => by rw [exec_mem_frame h hsave], fun hhalt => ?_⟩
  cases (exec_halt hhalt (running_of_exec h)).symm.trans h
  exact ⟨rfl, rfl, rfl⟩

/-- Settles O56: the microsequences of the three write none of the framed fields; READ pops nothing, PRINT and EMIT pop
once and push nothing. -/
theorem inputOutputInstructionsFrame : Obligations.InputOutputInstructionsFrame := by
  unfold Obligations.InputOutputInstructionsFrame
  intro i s t hi h
  have opcodes : ∀ o ∈ [Opcode.print, .read, .emit], o ∉ aluOpcodes ∧ o ≠ .saveVar ∧ Leaves o .ar ∧
      Leaves o .latch ∧ (o ≠ .read → Leaves o .input ∧ o ∈ [Opcode.print, .emit]) := by decide
  obtain ⟨halu, hsave, ar, latch, printing⟩ := opcodes _ hi
  obtain ⟨ir, count, params⟩ := exec_common_frame h
  obtain ⟨a, b, res, n, z, v⟩ := exec_alu_frame h halu
  refine ⟨exec_same h .ar ar, a, b, res, n, z, v, exec_same h .latch latch, count, params, ir,
    fun a => by rw [exec_mem_frame h hsave], fun hread => ?_, fun hprinting => ?_⟩
  · have read : ∀ o, o = .read → Leaves o .br ∧ Leaves o .output ∧ ∀ g ∈ microsequence o, g.pops = false := by
      rintro o rfl
      decide
    obtain ⟨br, output, noPop⟩ := read _ hread
    exact ⟨exec_same h .br br, exec_same h .output output, exec_stack_grows h noPop⟩
  · obtain ⟨input, hi⟩ := printing hprinting
    exact ⟨exec_same h .input input, exec_stack_of_printing hi h⟩

/-- Settles O57: the ceiling and the fetch write none of the six, and nor does any microsequence but those of the
nine. -/
theorem flagsPersistBetweenAluInstructions : Obligations.FlagsPersistBetweenAluInstructions := by
  unfold Obligations.FlagsPersistBetweenAluInstructions
  intro s t hm hcell hstep
  obtain rfl | rfl | ⟨w, rfl⟩ | ⟨i, hi, h⟩ := step_boundary_cases hm hstep
  · exact ⟨rfl, rfl, rfl, rfl, rfl, rfl⟩
  · exact ⟨rfl, rfl, rfl, rfl, rfl, rfl⟩
  · exact ⟨rfl, rfl, rfl, rfl, rfl, rfl⟩
  · obtain ⟨a, b, res, n, z, v⟩ := exec_alu_frame h (hcell i hi)
    exact ⟨n, z, v, a, b, res⟩

/-- Settles O59: every signal moves the buffers one way and leaves the parameters, so every step does. -/
theorem buffersMoveOneWayAndParametersStay : Obligations.BuffersMoveOneWayAndParametersStay := by
  unfold Obligations.BuffersMoveOneWayAndParametersStay
  intro s t hstep
  exact step_frame buffersAdvance_frame hstep Signal.keeps_buffersAdvance

/-- Settles O5, from what a push and a pop answer. -/
theorem pushAndPopFollowTheirRules : Obligations.PushAndPopFollowTheirRules := by
  unfold Obligations.PushAndPopFollowTheirRules
  intro s
  exact ⟨push_none s, fun w full => push_of_full w full.ge, fun w room => push_of_room w room,
    fun empty => ⟨popped_empty empty, pop_empty empty⟩, fun S w top => ⟨popped_concat top, pop_concat top⟩⟩

/-- Settles O18: the memory and the buffers of the reset state are empty, its registers hold Words and MPC is 0. -/
theorem resetStateMeetsInvariant : Obligations.ResetStateMeetsInvariant := by
  unfold Obligations.ResetStateMeetsInvariant
  exact ⟨reset_inv, reset_inv.rowInv, rfl, rfl, rfl, rfl, rfl, rfl, rfl, rfl, rfl, rfl, rfl, rfl, rfl, rfl, rfl, rfl,
    rfl, rfl⟩

/-- Settles O25: each of the three ends names its stop, which all three answer. -/
theorem endedRunTakesNoStep : Obligations.EndedRunTakesNoStep := by
  unfold Obligations.EndedRunTakesNoStep
  intro s
  have stop {f : Fault} (h : s.ended = some f) :
      Machine.step s = .fault f ∧ Machine.rowStep s = .fault f ∧ ∀ i, Machine.exec i s = .fault f :=
    ⟨step_ended h, rowStep_ended h, fun i => exec_ended i h⟩
  exact ⟨fun h => stop (by simp [State.ended, h]), fun h => stop (by simp [State.ended, h]),
    fun k h => stop (by simp [State.ended, h])⟩

end Sys2Proof.Statements
end

section
/-! SUPPORT. SAVE_VAR from its popped address to its end, and that nothing but a Word reaches memory
(spec/20_memory.md R72, R78, R79; spec/46_memory_ops.md R331). -/

namespace Sys2Proof.Machine

/-! ### Reads after a store -/

/-- Storing a Word brings no Instruction into memory. -/
theorem Memory.read_instr_of_write_word {m : Memory} (hm : m.wf) {a b : Nat} {w : Int} {i : Instr}
    (h : (m.write a (.word w)).read b = .instr i) : m.read b = .instr i := by
  by_cases hab : b = a
  · rw [hab, Memory.read_write_same hm] at h
    cases h
  · rwa [Memory.read_write_other m _ hab] at h

/-- A memory read of any other address gives, or faults, as it did before the store (R78). -/
theorem memRead_write_other {s : State} {a b : Int} (c : Cell) (ha : s.addressable a) (hab : b ≠ a) :
    State.memRead { s with mem := s.mem.write a.toNat c } b = s.memRead b := by
  by_cases hb : s.addressable b
  · have hne : b.toNat ≠ a.toNat := fun e => hab (by have := hb.1; have := ha.1; omega)
    rw [memRead_of_addressable hb, memRead_of_addressable (s := { s with mem := s.mem.write a.toNat c }) hb,
      Memory.read_write_other s.mem c hne]
  · rw [memRead_of_not_addressable hb,
      memRead_of_not_addressable (s := { s with mem := s.mem.write a.toNat c }) hb]

/-! ### The rows of SAVE_VAR after the address -/

/-- The state after the third row of SAVE_VAR, whose address is `x`: the value, if any, is popped into BR. -/
def State.valueTaken (s : State) (i : Instr) (x : Int) : State :=
  { s.enter i with
    ar        := x
    br        := s.pop.popped
    tos       := some x
    stack     := s.stack.dropLast.dropLast
    mpc       := firstRow i.opcode + 3
    tickCount := s.tickCount + 3 }

/-- The state after its fourth row: the value `y` is in LATCH. -/
def State.valueLatched (s : State) (i : Instr) (x y : Int) : State :=
  { s.enter i with
    ar        := x
    br        := some y
    tos       := some y
    stack     := s.stack.dropLast.dropLast
    latch     := .word y
    mpc       := firstRow i.opcode + 4
    tickCount := s.tickCount + 4 }

/-- The state in which SAVE_VAR completes. -/
def State.valueStored (s : State) (i : Instr) (x y : Int) : State :=
  { s.valueLatched i x y with
    mem       := s.mem.write x.toNat (.word y)
    pc        := s.pc + 1
    mpc       := 0
    tickCount := s.tickCount + 5 }

section
variable {i : Instr} {s : State} {x y : Int}

theorem exec_saveVar_eq_valueTaken (hi : i.opcode = .saveVar) (hr : s.status = .running)
    (hx : s.popped = some x) : exec i s = .next (finish 68 (s.valueTaken i x)) := by
  have row : table[(s.addressTaken i x).mpc]? = some [.brFromPop, .mpcNext] := by
    simp only [State.addressTaken, hi]; rfl
  rw [exec_eq_addressTaken (by simp [hi]) hr hx, finish_row (s := s.addressTaken i x) (Nat.succ_ne_zero _) hr row]
  simp [runSignals, execSignal, signalEffect, State.addressTaken, State.topTaken, State.valueTaken, State.popped, hr]

theorem exec_saveVar_eq_valueRow (hi : i.opcode = .saveVar) (hr : s.status = .running)
    (hx : s.popped = some x) :
    exec i s = .next (finish 67 (runSignals [.tosFromBr, .memLatchTos, .mpcNext] (s.valueTaken i x))) := by
  have row : table[(s.valueTaken i x).mpc]? = some [.tosFromBr, .memLatchTos, .mpcNext] := by
    simp only [State.valueTaken, hi]; rfl
  rw [exec_saveVar_eq_valueTaken hi hr hx, finish_row (s := s.valueTaken i x) (Nat.succ_ne_zero _) hr row]

/-- Without a value below the address SAVE_VAR faults at its fourth row (R404). -/
theorem exec_saveVar_of_no_value (hi : i.opcode = .saveVar) (hr : s.status = .running)
    (hx : s.popped = some x) (hy : s.pop.popped = none) :
    exec i s = .next (State.raise { s.valueTaken i x with tos := none } .operandAbsent) := by
  have row : runSignals [.tosFromBr, .memLatchTos, .mpcNext] (s.valueTaken i x) =
      State.raise { s.valueTaken i x with tos := none } .operandAbsent := by
    simp [runSignals, execSignal, signalEffect, State.valueTaken, State.raise, hy, hr]
  rw [exec_saveVar_eq_valueRow hi hr hx, row]
  exact congrArg _ (finish_stop (.inr nofun))

theorem exec_saveVar_eq_storeRow (hi : i.opcode = .saveVar) (hr : s.status = .running)
    (hx : s.popped = some x) (hy : s.pop.popped = some y) :
    exec i s = .next (finish 66 (runSignals [.memWrite, .pcInc, .mpcZero] (s.valueLatched i x y))) := by
  have latched : runSignals [.tosFromBr, .memLatchTos, .mpcNext] (s.valueTaken i x) = s.valueLatched i x y := by
    simp [runSignals, execSignal, signalEffect, State.valueLatched, State.valueTaken, hy, hr]
  have row : table[(s.valueLatched i x y).mpc]? = some [.memWrite, .pcInc, .mpcZero] := by
    simp only [State.valueLatched, hi]; rfl
  rw [exec_saveVar_eq_valueRow hi hr hx, latched,
    finish_row (s := s.valueLatched i x y) (Nat.succ_ne_zero _) hr row]

/-- An address outside the memory faults at the fifth row, after both pops (R406). -/
theorem exec_saveVar_of_outside (hi : i.opcode = .saveVar) (hr : s.status = .running)
    (hx : s.popped = some x) (hy : s.pop.popped = some y) (ha : ¬ s.addressable x) :
    exec i s = .next ((s.valueLatched i x y).raise .memoryOutOfRange) := by
  have fault : execSignal .memWrite (s.valueLatched i x y) = (s.valueLatched i x y).raise .memoryOutOfRange :=
    execSignal_of_error (memWrite_of_not_addressable _ ha)
  rw [exec_saveVar_eq_storeRow hi hr hx hy, runSignals_cons_stopped fault nofun]
  exact congrArg _ (finish_stop (.inr nofun))

/-- Inside the memory SAVE_VAR stores the value at the address, and PC moves on (R331). -/
theorem exec_saveVar_of_inside (hi : i.opcode = .saveVar) (hr : s.status = .running)
    (hx : s.popped = some x) (hy : s.pop.popped = some y) (ha : s.addressable x) :
    exec i s = .next (s.valueStored i x y) := by
  have store : execSignal .memWrite (s.valueLatched i x y) =
      { s.valueLatched i x y with mem := s.mem.write x.toNat (.word y) } :=
    execSignal_of_ok (memWrite_of_addressable _ ha)
  have done : runSignals [.memWrite, .pcInc, .mpcZero] (s.valueLatched i x y) = s.valueStored i x y := by
    rw [runSignals_cons_running store hr]
    simp [runSignals, execSignal, signalEffect, State.valueStored, State.valueLatched, hr]
  rw [exec_saveVar_eq_storeRow hi hr hx hy, done, finish_stop (.inl rfl)]

end

/-! ### What an instruction does to memory -/

/-- SAVE_VAR faults before its store, or stores a Word. -/
theorem exec_saveVar_stores_word {i : Instr} {s t : State} (hi : i.opcode = .saveVar) (h : exec i s = .next t) :
    t.mem = s.mem ∨ ∃ a y, t.mem = s.mem.write a (.word y) := by
  have hr := running_of_exec h
  cases hx : s.popped with
  | none =>
    cases (exec_of_no_address (by simp [hi]) hr hx).symm.trans h
    exact .inl rfl
  | some x =>
    cases hy : s.pop.popped with
    | none =>
      cases (exec_saveVar_of_no_value hi hr hx hy).symm.trans h
      exact .inl rfl
    | some y =>
      by_cases ha : s.addressable x
      · cases (exec_saveVar_of_inside hi hr hx hy ha).symm.trans h
        exact .inr ⟨x.toNat, y, rfl⟩
      · cases (exec_saveVar_of_outside hi hr hx hy ha).symm.trans h
        exact .inl rfl

/-- No instruction puts an Instruction into memory (R79). -/
theorem exec_read_instr {i : Instr} {s t : State} (hm : s.mem.wf) (h : exec i s = .next t) {a : Nat} {j : Instr}
    (hj : t.mem.read a = .instr j) : s.mem.read a = .instr j := by
  by_cases hi : i.opcode = .saveVar
  · obtain e | ⟨b, y, e⟩ := exec_saveVar_stores_word hi h
    · rwa [e] at hj
    · rw [e] at hj
      exact Memory.read_instr_of_write_word hm hj
  · rwa [exec_mem_frame h hi] at hj

end Sys2Proof.Machine
end

section
/-! PROOFS. The statements of spec/20_memory.md. -/

open Sys2Proof.Machine

namespace Sys2Proof.Statements

/-- Settles O58: the ceiling and the two faults of the fetch leave memory; of the instructions only SAVE_VAR writes it,
and what it stores is the Word it has latched. -/
theorem programsNeverWriteInstructions : Obligations.ProgramsNeverWriteInstructions := by
  unfold Obligations.ProgramsNeverWriteInstructions
  intro s t hmem hm hstep
  obtain rfl | rfl | ⟨w, rfl⟩ | ⟨i, hi, h⟩ := step_boundary_cases hm hstep
  · exact ⟨fun _ _ hj => hj, fun _ _ => rfl⟩
  · exact ⟨fun _ _ hj => hj, fun _ _ => rfl⟩
  · exact ⟨fun _ _ hj => hj, fun _ _ => rfl⟩
  · refine ⟨fun a j hj => exec_read_instr (s := s.fetched i) hmem h hj, fun hcell a => ?_⟩
    rw [exec_mem_frame h (hcell i hi)]
    rfl

/-- Settles O4: the range check decides both accesses, and inside the range the laws of `Memory.write` give every
read after the store. -/
theorem memoryAccessesAreCheckedAndCoherent : Obligations.MemoryAccessesAreCheckedAndCoherent := by
  unfold Obligations.MemoryAccessesAreCheckedAndCoherent
  intro s a c hmem
  refine ⟨fun hout => ⟨memRead_of_not_addressable hout, memWrite_of_not_addressable c hout⟩, fun hin => ?_⟩
  refine ⟨⟨_, memRead_of_addressable hin⟩, _, memWrite_of_addressable c hin, rfl, Memory.write_wf hmem _ _, ?_,
    fun b hb => memRead_write_other c hin hb⟩
  exact memRead_eq_ok.mpr ⟨hin, Memory.read_write_same hmem _ _⟩

/-- Settles O22: such a PC is not addressable, so the fetch faults in row 0. -/
theorem fetchOutsideMemoryFaults : Obligations.FetchOutsideMemoryFaults := by
  unfold Obligations.FetchOutsideMemoryFaults
  intro s ready hpc
  exact step_of_outside ready fun ⟨low, high⟩ => hpc.elim (not_lt.mpr low) (not_le.mpr high)

/-- Settles O23: row 0 latches the Word, and row 1 finds no opcode to dispatch. -/
theorem fetchOfWordFaultsNoOpcode : Obligations.FetchOfWordFaultsNoOpcode := by
  unfold Obligations.FetchOfWordFaultsNoOpcode
  intro s w ready low high hcell
  exact step_of_word ready (memRead_eq_ok.mpr ⟨⟨low, high⟩, hcell⟩)

end Sys2Proof.Statements
end

section
/-! SUPPORT. Decoding and encoding are inverse, and the loader's checks on a list of encoded instructions
(spec/30_encoding.md R100 to R108). -/

namespace Sys2Proof.Machine

/-! ### Records -/

/-- The round trip, the ordinal's range and the shape check hold of every instruction. -/
theorem roundTrip (i : Instr) : Laws.RoundTrip.Statement i := by
  cases i with
  | sum arg tag => exact Laws.RoundTrip.sum arg tag
  | sub arg tag => exact Laws.RoundTrip.sub arg tag
  | mul arg tag => exact Laws.RoundTrip.mul arg tag
  | div arg tag => exact Laws.RoundTrip.div arg tag
  | mod arg tag => exact Laws.RoundTrip.mod arg tag
  | eq arg tag => exact Laws.RoundTrip.eq arg tag
  | notEq arg tag => exact Laws.RoundTrip.notEq arg tag
  | more arg tag => exact Laws.RoundTrip.more arg tag
  | less arg tag => exact Laws.RoundTrip.less arg tag
  | dup arg tag => exact Laws.RoundTrip.dup arg tag
  | drop arg tag => exact Laws.RoundTrip.drop arg tag
  | swap arg tag => exact Laws.RoundTrip.swap arg tag
  | push arg tag => exact Laws.RoundTrip.push arg tag
  | addrOnTop arg tag => exact Laws.RoundTrip.addrOnTop arg tag
  | saveVar arg tag => exact Laws.RoundTrip.saveVar arg tag
  | varOnTop arg tag => exact Laws.RoundTrip.varOnTop arg tag
  | jzs arg tag => exact Laws.RoundTrip.jzs arg tag
  | jmp arg tag => exact Laws.RoundTrip.jmp arg tag
  | halt arg tag => exact Laws.RoundTrip.halt arg tag
  | print arg tag => exact Laws.RoundTrip.print arg tag
  | read arg tag => exact Laws.RoundTrip.read arg tag
  | emit arg tag => exact Laws.RoundTrip.emit arg tag

theorem decode_encode (i : Instr) : decode (encode i) = .ok i := (roundTrip i).1

theorem decode_eq_ok_iff {r : Record} {i : Instr} : decode r = .ok i ↔ r = encode i :=
  ⟨fun h => (encode_of_decode h).symm, fun h => h ▸ decode_encode i⟩

/-- The ordinals of no opcode are those from 22 on (R102, R107). -/
theorem ofOrdinal_eq_none_iff {n : Nat} : Opcode.ofOrdinal n = none ↔ 22 ≤ n := by
  constructor
  · intro h
    by_contra hlt
    have inTable : ∀ k < 22, Opcode.ofOrdinal k ≠ none := by decide
    exact inTable n (by omega) h
  · intro h
    obtain ⟨k, rfl⟩ := Nat.exists_eq_add_of_le' h
    rfl

theorem exists_decode_eq_error_iff {r : Record} : (∃ e, decode r = .error e) ↔ 22 ≤ r.opcode := by
  rw [← ofOrdinal_eq_none_iff]
  unfold decode
  split
  case h_1 o ho => simp [ho]
  case h_2 ho => simp [ho]

theorem exists_eq_encode_iff {r : Record} : (∃ i, r = encode i) ↔ r.opcode < 22 := by
  rw [← not_le, ← exists_decode_eq_error_iff]
  simp only [← decode_eq_ok_iff]
  cases decode r <;> simp

/-! ### The checks on a list of records -/

/-- Check 2: a list of records stands for a program exactly when every opcode is one of the 22 (R108). -/
theorem exists_eq_map_encode_iff {records : List Record} :
    (∃ prog : List Instr, records = prog.map encode) ↔ ∀ r ∈ records, r.opcode < 22 := by
  have range := Set.ext_iff.mp (Set.range_list_map encode) records
  simpa only [Set.mem_range, Set.mem_ofPred_eq, eq_comm (b := records), eq_comm (a := encode _),
    exists_eq_encode_iff] using range

theorem decodeAll_map_encode (prog : List Instr) : decodeAll (prog.map encode) = .ok prog := by
  induction prog with
  | nil => rfl
  | cons i rest ih => simp [decodeAll, decode_encode, ih]

/-- Check 3: the last record is HALT, whose ordinal is 18. -/
theorem lastIsHalt_iff {prog : List Instr} :
    lastIsHalt prog = true ↔ ∃ r, (prog.map encode).getLast? = some r ∧ r.opcode = 18 := by
  have ordinal_eq (o : Opcode) : o.ordinal = 18 ↔ o = .halt := by cases o <;> decide
  unfold lastIsHalt
  rw [List.getLast?_map]
  cases prog.getLast? with
  | none => simp
  | some i => simp [encode, ordinal_eq]

theorem requiresArg_iff {o : Opcode} :
    o.requiresArg = true ↔ o.ordinal = 12 ∨ o.ordinal = 13 ∨ o.ordinal = 16 ∨ o.ordinal = 17 := by
  cases o <;> decide

theorem argIsPresentWord_iff {arg : OptWord} : argIsPresentWord arg = true ↔ arg ≠ none ∧ OptIsWord arg := by
  cases arg with
  | none => simp [argIsPresentWord]
  | some w => simp [argIsPresentWord, optIsWord_some]

/-- Checks 4 and 5 on an instruction: an arg that is required is present, and one that is present is a Word. -/
theorem wellFormed_iff {i : Instr} :
    i.wellFormed = true ↔ (i.opcode.requiresArg = true → i.arg ≠ none) ∧ OptIsWord i.arg := by
  rw [(roundTrip i).2.2]
  split
  case isTrue h => simp [h, argIsPresentWord_iff]
  case isFalse h => simp [h, argIsWord_iff]

/-- Checks 4 and 5 on a program, as R108 has them on its records. -/
theorem forall_wellFormed_iff {prog : List Instr} :
    (∀ i ∈ prog, i.wellFormed = true) ↔
      (∀ r ∈ prog.map encode, r.opcode = 12 ∨ r.opcode = 13 ∨ r.opcode = 16 ∨ r.opcode = 17 → r.arg ≠ none) ∧
      ∀ r ∈ prog.map encode, ∀ w, r.arg = some w → IsWord w := by
  simp only [wellFormed_iff, requiresArg_iff, List.forall_mem_map, ← forall₂_and, OptIsWord, Option.mem_def, encode]

/-- A check in front of a load lets exactly the lists through that pass it. -/
theorem exists_check_eq_ok_iff {α ε : Type} {c : Prop} [Decidable c] {e : ε} {x : Except ε α} :
    (∃ s, (if c then .error e else x) = .ok s) ↔ ¬ c ∧ ∃ s, x = .ok s := by
  by_cases h : c <;> simp [h]

/-- The loader gives a run to an encoded program exactly when the checks after decoding hold (R108). -/
theorem load_map_encode_iff {p : Params} {prog : List Instr} {input : List Nat}
    (hmem : (p.memSize : Int) ≤ wordMax) :
    (∃ s, load p (prog.map encode) input = .ok s) ↔
      1 ≤ prog.length ∧ lastIsHalt prog = true ∧ (∀ i ∈ prog, i.wellFormed = true) ∧
      prog.length + 1 ≤ p.memSize ∧ ∀ c ∈ input, c ≤ p.charCodeMax := by
  unfold load
  rw [decodeAll_map_encode]
  dsimp only
  simp only [exists_check_eq_ok_iff, not_lt.mpr hmem]
  simp [Nat.one_le_iff_ne_zero]

end Sys2Proof.Machine
end

section
/-! PROOFS. The statements of spec/30_encoding.md. -/

open Sys2Proof.Machine

namespace Sys2Proof.Statements

/-- Settles O1: a record that decodes is the record of its instruction, every instruction's record decodes to it, and
the ordinals of no opcode start at 22. -/
theorem encodedInstructionDecodesBack : Obligations.EncodedInstructionDecodesBack := by
  unfold Obligations.EncodedInstructionDecodesBack
  exact fun r i => ⟨decode_eq_ok_iff, exists_decode_eq_error_iff⟩

/-- Settles O15: records whose opcodes are all of the table are an encoded program, on which each check of the loader
is the rule's; other records it does not decode. -/
theorem loaderAcceptsExactlyTheCheckedLists : Obligations.LoaderAcceptsExactlyTheCheckedLists := by
  unfold Obligations.LoaderAcceptsExactlyTheCheckedLists
  intro p records input hmem
  by_cases hops : ∀ r ∈ records, r.opcode < 22
  · obtain ⟨prog, rfl⟩ := exists_eq_map_encode_iff.mpr hops
    rw [load_map_encode_iff hmem, lastIsHalt_iff, forall_wellFormed_iff, List.length_map, and_iff_right hops,
      and_assoc (c := _ ∧ _)]
  · refine iff_of_false (fun ⟨s, hload⟩ => hops ?_) fun checks => hops checks.2.1
    obtain ⟨prog, hprog, -, -⟩ := decodeAll_of_load hload
    exact exists_eq_map_encode_iff.mp ⟨prog, (map_encode_of_decodeAll hprog).symm⟩

/-- Settles O2: the table's rows are checked one by one, and the records and table words decoded. -/
theorem opcodeTableOrdinalsAndFirstRows : Obligations.OpcodeTableOrdinalsAndFirstRows := by
  unfold Obligations.OpcodeTableOrdinalsAndFirstRows
  have rows : ∀ e ∈ opcodeTable, Opcode.ofOrdinal e.2.1 = some e.1 ∧ e.1.ordinal = e.2.1 ∧
      e.1.requiresArg = e.2.2.1 ∧ firstRow e.1 = e.2.2.2 := by decide
  exact ⟨rows, rfl, rfl, rfl, rfl, rfl, rfl, rfl, rfl, rfl, rfl⟩

/-- Settles O3: the two forms of a cell, and the rebuilding of an instruction from its three parts. -/
theorem cellDecodesByItsTag : Obligations.CellDecodesByItsTag := by
  unfold Obligations.CellDecodesByItsTag
  exact ⟨fun i => ⟨rfl, ofParts_parts i⟩, fun _ => rfl⟩

end Sys2Proof.Statements
end

section
/-! SUPPORT. What the ALU's division, overflow flag and operation come to (spec/40_alu.md R143 to R147). -/

namespace Sys2Proof.Machine

/-! ### Floor division and floor modulo -/

/-- The floor quotient by a positive divisor is the greatest `q` with `q * b ≤ a` (R143). -/
theorem le_floordiv_iff_of_pos {a b q : Int} (hb : 0 < b) : q ≤ floordiv a b ↔ q * b ≤ a := by
  rw [floordiv, Int.fdiv_eq_ediv_of_nonneg a hb.le]
  exact Int.le_ediv_iff_mul_le hb

/-- By a negative divisor it is the quotient of the two negated, so the greatest `q` with `q * b ≥ a` (R143). -/
theorem le_floordiv_iff_of_neg {a b q : Int} (hb : b < 0) : q ≤ floordiv a b ↔ a ≤ q * b := by
  have negated : floordiv (-a) (-b) = floordiv a b := Int.neg_fdiv_neg a b
  rw [← negated, le_floordiv_iff_of_pos (neg_pos.mpr hb), mul_neg, neg_le_neg_iff]

theorem floormod_eq_fmod (a b : Int) : floormod a b = a.fmod b := (Int.fmod_def a b).symm

theorem floormod_range_of_pos (a : Int) {b : Int} (hb : 0 < b) : 0 ≤ floormod a b ∧ floormod a b < b := by
  rw [floormod_eq_fmod]
  exact ⟨Int.fmod_nonneg_of_pos a hb, Int.fmod_lt_of_pos a hb⟩

theorem floormod_range_of_neg (a : Int) {b : Int} (hb : b < 0) : b < floormod a b ∧ floormod a b ≤ 0 := by
  rw [floormod_eq_fmod]
  exact ((Int.fdiv_fmod_unique' hb).mp ⟨rfl, rfl⟩).2

/-! ### The overflow flag and the wrap -/

/-- V is set exactly for the exact results that are no Word (R146). -/
theorem overflow_eq_true_iff {r : Int} : overflow r = true ↔ ¬ IsWord r := by
  simp only [overflow, decide_eq_true_eq, IsWord]
  omega

theorem overflow_eq_false_iff {r : Int} : overflow r = false ↔ IsWord r := by
  rw [← Bool.not_eq_true, overflow_eq_true_iff, not_not]

theorem wrap_of_above {r : Int} (h : wordMax < r) : wrap r = r % 2147483647 := by
  obtain ⟨-, e⟩ | ⟨low, -⟩ | ⟨word, -⟩ := wrap_cases r
  · exact e
  · exact absurd (low.trans (by decide)) h.not_gt
  · exact absurd word.2 (not_le.mpr h)

theorem wrap_of_below {r : Int} (h : r < wordMin) : wrap r = r % 2147483648 := by
  obtain ⟨high, -⟩ | ⟨-, e⟩ | ⟨word, -⟩ := wrap_cases r
  · exact absurd (high.trans h) (by decide)
  · exact e
  · exact absurd word.1 (not_le.mpr h)

theorem wrap_of_isWord {r : Int} (h : IsWord r) : wrap r = r := by
  obtain ⟨high, -⟩ | ⟨low, -⟩ | ⟨-, e⟩ := wrap_cases r
  · exact absurd h.2 (not_le.mpr high)
  · exact absurd h.1 (not_le.mpr low)
  · exact e

/-! ### The operation -/

theorem AluOp.divides_iff {k : AluOp} : k.divides = true ↔ k = .div ∨ k = .mod := by
  cases k <;> decide

/-- Presence is checked first: an absent operand faults whatever the other is (R147). -/
theorem aluOp_of_absent {s : State} {k : AluOp} (h : s.aluA = none ∨ s.aluB = none) :
    s.aluOp k = .error .operandAbsent := by
  cases ha : s.aluA with
  | none => simp [State.aluOp, ha]
  | some a =>
    have hb : s.aluB = none := h.resolve_left (ha ▸ nofun)
    simp [State.aluOp, ha, hb]

/-- On present operands, an operation that divides refuses the divisor 0 (R144, R147). -/
theorem aluOp_of_zero_divisor {s : State} {k : AluOp} {a : Int} (ha : s.aluA = some a) (hb : s.aluB = some 0)
    (hd : k.divides = true) : s.aluOp k = .error .divisionByZero := by
  simp [State.aluOp, ha, hb, hd]

end Sys2Proof.Machine
end

section
/-! PROOFS. The statements of spec/40_alu.md. -/

open Sys2Proof.Machine

namespace Sys2Proof.Statements

/-- Settles O6: outside the range the wrapped value is the remainder by the bound that was passed, whose quotient is the
multiple; inside it is the exact result. -/
theorem wrapIsTheAsymmetricModulo : Obligations.WrapIsTheAsymmetricModulo := by
  unfold Obligations.WrapIsTheAsymmetricModulo
  intro r
  refine ⟨fun high => ?_, fun low => ?_, fun inside => ?_, wrap_isWord r⟩
  · rw [overflow_eq_true_iff, wrap_of_above high]
    exact ⟨fun word => not_le.mpr high word.2, by omega, by omega, r / 2147483647, by omega⟩
  · rw [overflow_eq_true_iff, wrap_of_below low]
    exact ⟨fun word => not_le.mpr low word.1, by omega, by omega, r / 2147483648, by omega⟩
  · exact ⟨overflow_eq_false_iff.mpr inside, wrap_of_isWord inside⟩

/-- Settles O7: the quotient by its two characterisations, the remainder by its range on either side of 0. -/
theorem divisionFloorsAndModuloFollowsDivisor : Obligations.DivisionFloorsAndModuloFollowsDivisor := by
  unfold Obligations.DivisionFloorsAndModuloFollowsDivisor
  simp only [exactResult]
  intro a b
  refine ⟨fun pos => ⟨(le_floordiv_iff_of_pos pos).mp le_rfl, fun q => (le_floordiv_iff_of_pos pos).mpr⟩,
    fun neg => ⟨(le_floordiv_iff_of_neg neg).mp le_rfl, fun q => (le_floordiv_iff_of_neg neg).mpr⟩,
    fun nonzero => ⟨rfl, ?_⟩⟩
  obtain neg | pos := lt_or_gt_of_ne nonzero
  · obtain ⟨low, high⟩ := floormod_range_of_neg a neg
    rw [abs_of_nonpos high, abs_of_neg neg]
    omega
  · obtain ⟨low, high⟩ := floormod_range_of_pos a pos
    rw [abs_of_nonneg low, abs_of_pos pos]
    omega

/-- Settles O8: the signal's effect is the operation's answer, which the operands decide in the order of R147. -/
theorem aluOperationWritesResultAndFlags : Obligations.AluOperationWritesResultAndFlags := by
  unfold Obligations.AluOperationWritesResultAndFlags
  simp only [← AluOp.divides_iff]
  intro s k _
  refine ⟨fun absent => execSignal_of_error (g := .aluOp k) (aluOp_of_absent absent), fun a b ha hb => ⟨?_, ?_⟩⟩
  · rintro ⟨divides, rfl⟩
    exact execSignal_of_error (g := .aluOp k) (aluOp_of_zero_divisor ha hb divides)
  · exact fun defined =>
      ⟨execSignal_of_ok (g := .aluOp k) (aluOp_eq_ok.mpr ⟨a, b, ha, hb, defined, rfl⟩), wrap_isWord _⟩

end Sys2Proof.Statements
end

section
/-! SUPPORT. What a signal does to STATUS and TICK_COUNT, and what a row comes to once some of its signals have run
(spec/41_datapath_signals.md R194, R195; spec/42_control_unit.md R234, R236, R238). -/

open Sys2Proof.Statements

namespace Sys2Proof.Machine

/-! ### Signals -/

/-- Only HALT writes STATUS where it completes (R236). -/
theorem Completes.status {g : Signal} {s t : State} (h : Completes s g t) (hg : g ≠ .halt) : t.status = s.status := by
  cases h with
  | halt => exact absurd rfl hg
  | _ => rfl

theorem execSignal_halt (s : State) : execSignal .halt s = { s with status := .halted } := rfl

/-- A signal other than HALT leaves STATUS, or faults by its own effect with nothing else changed. -/
theorem execSignal_status_cases {g : Signal} (hg : g ≠ .halt) (s : State) :
    (execSignal g s).status = s.status ∨ ∃ k, signalEffect g s = .error k ∧ execSignal g s = s.raise k := by
  cases h : signalEffect g s with
  | ok t => exact .inl (execSignal_of_ok h ▸ (completes_of_ok h).status hg)
  | error k => exact .inr ⟨k, rfl, execSignal_of_error h⟩

/-- In a running state a fault status comes from the signal's own fault, which writes nothing else (R194). -/
theorem execSignal_eq_raise {g : Signal} {s : State} {k : FaultKind} (hr : s.status = .running)
    (h : (execSignal g s).status = .fault k) : execSignal g s = s.raise k := by
  by_cases hg : g = .halt
  · rw [hg, execSignal_halt] at h
    cases h
  · obtain same | ⟨k', -, raised⟩ := execSignal_status_cases hg s
    · cases hr.symm.trans (same.symm.trans h)
    · rw [raised] at h ⊢
      cases h
      rfl

/-- Ticks count rows, so no signal writes TICK_COUNT (R238). -/
theorem execSignal_tickCount (g : Signal) (s : State) : (execSignal g s).tickCount = s.tickCount := by
  obtain h | ⟨k, h⟩ := execSignal_cases g s
  · generalize execSignal g s = t at h
    cases h <;> rfl
  · simp [h]

/-- A signal leaves each field that it is not said to write, whether it completes or faults. -/
theorem execSignal_same {g : Signal} (f : Field) (hf : f ∉ g.writes) (s : State) : f.Same s (execSignal g s) :=
  execSignal_frame f.frame (Signal.keeps_same hf) s

/-- The signals that write N, Z and V are the ALU operations (R195). -/
theorem Signal.flags_not_written {g : Signal} (hg : ∀ k, g ≠ .aluOp k) :
    Field.flagN ∉ g.writes ∧ Field.flagZ ∉ g.writes ∧ Field.flagV ∉ g.writes := by
  cases g with
  | aluOp k => exact absurd rfl (hg k)
  | _ => decide

/-- A signal of the datapath categories is none of the control unit's own: it does not sequence and counts no
instruction (R170). -/
theorem Signal.of_datapath_category {g : Signal} (hm : g.category ≠ some .microcodeAddress)
    (hh : g.category ≠ some .halt) : g.sequences = false ∧ g ≠ .halt ∧ Field.instrCount ∉ g.writes := by
  cases g with
  | mpcNext | mpcZero | mpcOpcode => exact absurd rfl hm
  | halt => exact absurd rfl hh
  | aluOp k => exact ⟨rfl, nofun, by simp [Signal.writes]⟩
  | _ => decide

/-! ### Rows -/

/-- While the signals of the first part of a row keep the run going, the row goes on with the rest in the state they
leave (R234). -/
theorem runSignals_append (before rest : Row) {s : State}
    (h : ∀ n ≤ before.length, (afterSignals (before.take n) s).status = .running) :
    runSignals (before ++ rest) s = runSignals rest (afterSignals before s) := by
  induction before generalizing s with
  | nil => rfl
  | cons g before ih =>
    have first : (execSignal g s).status = .running := h 1 (by simp)
    have later : ∀ n ≤ before.length, (afterSignals (before.take n) (execSignal g s)).status = .running :=
      fun n hn => h (n + 1) (Nat.succ_le_succ hn)
    exact (runSignals_cons_running rfl first).trans (ih later)

end Sys2Proof.Machine
end

section
/-! SUPPORT. The instructions that read their arg, on a record that may have none (spec/30_encoding.md R105;
spec/41_datapath_signals.md R180, R181, R191, R192). -/

namespace Sys2Proof.Machine

/-- The last row of an instruction: it sets MPC back to 0 or ends the run (R15). -/
theorem finish_last_row {fuel : Nat} {s t : State} {row : Row} (hm : s.mpc ≠ 0) (hr : s.status = .running)
    (hrow : table[s.mpc]? = some row) (hrun : runSignals row s = t) (ht : t.mpc = 0 ∨ t.status ≠ .running) :
    finish (fuel + 1) s = t := by
  rw [finish_row hm hr hrow, hrun, finish_stop ht]

/-- The state after a first row that takes the arg into TOS and does no more (rows 47 and 62). -/
def State.argTaken (s : State) (i : Instr) : State :=
  { s.enter i with tos := i.arg, mpc := firstRow i.opcode + 1, tickCount := s.tickCount + 1 }

/-- The state after row 60, which takes the arg and increments PC, whichever way row 61 goes (R351). -/
def State.targetTaken (s : State) (i : Instr) : State := { s.argTaken i with pc := s.pc + 1 }

section
variable {s : State} (hr : s.status = .running)
include hr

/-- An instruction of two rows of which the first takes the arg (PUSH, JMP) comes to what its second leaves. -/
theorem exec_of_argTaken {i : Instr} {row : Row} {t : State}
    (first : table[firstRow i.opcode]? = some [.tosFromArg, .mpcNext])
    (second : table[firstRow i.opcode + 1]? = some row) (hrun : runSignals row (s.argTaken i) = t)
    (ht : t.mpc = 0 ∨ t.status ≠ .running) : exec i s = .next t := by
  have taken : runSignals [.tosFromArg, .mpcNext] (s.enter i) = s.argTaken i := by
    simp [runSignals, execSignal, signalEffect, IRVal.arg, State.argTaken, hr]
  rw [exec_eq_firstRow i hr first, taken,
    finish_last_row (s := s.argTaken i) (Nat.succ_ne_zero _) hr second hrun ht]

/-- JZS comes to what row 61 leaves. -/
theorem exec_jzs_of_targetTaken {arg : OptWord} {tag : Option SourceTag} {t : State}
    (hrun : runSignals [.jumpIfZ, .mpcZero] (s.targetTaken (.jzs arg tag)) = t)
    (ht : t.mpc = 0 ∨ t.status ≠ .running) : exec (.jzs arg tag) s = .next t := by
  have taken : runSignals [.tosFromArg, .pcInc, .mpcNext] (s.enter (.jzs arg tag)) = s.targetTaken (.jzs arg tag) := by
    simp [runSignals, execSignal, signalEffect, IRVal.arg, State.targetTaken, State.argTaken, hr]
  rw [exec_eq_firstRow (.jzs arg tag) hr rfl, taken,
    finish_last_row (s := s.targetTaken _) (Nat.succ_ne_zero _) hr rfl hrun ht]

/-- Pushing the absent TOS is a no-op, so the row only moves PC on (R45, R183). -/
theorem runSignals_pushRow_of_absent (hv : s.tos = none) :
    runSignals [.dsPush, .pcInc, .mpcZero] s =
      { s with pc := s.pc + 1, mpc := 0, tickCount := s.tickCount + 1 } := by
  have push : execSignal .dsPush s = s := execSignal_of_ok (by simp [signalEffect, hv])
  rw [runSignals_cons_running push hr]
  simp [runSignals, execSignal, signalEffect, hr]

/-- With Z = 0 the row of JZS leaves PC, and does not look at TOS (R191). -/
theorem runSignals_jzsRow_of_not_zero (hz : s.flagZ = false) :
    runSignals [.jumpIfZ, .mpcZero] s = { s with mpc := 0, tickCount := s.tickCount + 1 } := by
  simp [runSignals, execSignal, signalEffect, hz, hr]

end

section
variable {s : State} (hv : s.tos = none)
include hv

/-- JUMP to an absent target faults before it writes PC (R192). -/
theorem runSignals_jump_of_absent (rest : Row) :
    runSignals (.jump :: rest) s = s.raise .operandAbsent :=
  runSignals_cons_stopped (execSignal_of_error (by simp [signalEffect, hv])) nofun

/-- So does JUMP_IF_Z where it is to jump (R191). -/
theorem runSignals_jumpIfZ_of_absent (hz : s.flagZ = true) (rest : Row) :
    runSignals (.jumpIfZ :: rest) s = s.raise .operandAbsent :=
  runSignals_cons_stopped (execSignal_of_error (by simp [signalEffect, hv, hz])) nofun

end

/-- The base-relative immediate of an absent arg faults, whatever MEM[0] holds (R181, R413). -/
theorem runSignals_tosFromVarAddr_of_absent {s : State} (hv : s.ir.arg = none) (rest : Row) :
    runSignals (.tosFromVarAddr :: rest) s = s.raise .operandAbsent :=
  runSignals_cons_stopped (execSignal_of_error (by simp [signalEffect, State.varAddress, hv])) nofun

end Sys2Proof.Machine
end

section
/-! PROOFS. The statements of spec/41_datapath_signals.md. -/

open Sys2Proof.Machine

namespace Sys2Proof.Statements

/-- Settles O10: a fault status in a running state can only be the signal's own fault, which changes STATUS alone; the
row has come to that signal by the ones before it, and stops there. -/
theorem faultingSignalChangesOnlyStatus : Obligations.FaultingSignalChangesOnlyStatus := by
  unfold Obligations.FaultingSignalChangesOnlyStatus
  intro g s k hr hfault
  have raised : execSignal g s = s.raise k := execSignal_eq_raise hr hfault
  refine ⟨raised, fun before after s₀ going hs => ?_⟩
  calc runSignals (before ++ g :: after) s₀
    _ = runSignals (g :: after) s := hs ▸ runSignals_append before (g :: after) going
    _ = s.raise k := runSignals_cons_stopped raised nofun

/-- Settles O14: the fields that a datapath signal may write are listed; STATUS is left, or written by its fault. -/
theorem datapathSignalsLeaveFlagsAndSequencer : Obligations.DatapathSignalsLeaveFlagsAndSequencer := by
  unfold Obligations.DatapathSignalsLeaveFlagsAndSequencer
  intro g s hm hh _
  obtain ⟨seq, notHalt, count⟩ := Signal.of_datapath_category hm hh
  refine ⟨fun notAlu => ?_, execSignal_mpc seq s, execSignal_same .instrCount count s, execSignal_tickCount g s, ?_⟩
  · obtain ⟨n, z, v⟩ := Signal.flags_not_written notAlu
    exact ⟨execSignal_same .flagN n s, execSignal_same .flagZ z s, execSignal_same .flagV v s⟩
  · obtain same | ⟨k, effect, raised⟩ := execSignal_status_cases notHalt s
    · exact .inl same
    · exact .inr ⟨k, effect, by rw [raised, State.raise_status]⟩

/-- Settles O51: PUSH, JZS and JMP take the absent arg into TOS, and their second row pushes nothing, falls through or
faults; ADDR_ON_TOP faults at once. -/
theorem missingRequiredArgumentIsAbsent : Obligations.MissingRequiredArgumentIsAbsent := by
  unfold Obligations.MissingRequiredArgumentIsAbsent
  intro tag s hr
  refine ⟨?push, ?addrOnTop, fun hz => ?jzsStay, fun hz => ?jzsTake, ?jmp⟩
  case push => exact exec_of_argTaken hr rfl rfl (runSignals_pushRow_of_absent hr rfl) (.inl rfl)
  case addrOnTop =>
    rw [Runs, exec_eq_firstRow (.addrOnTop none tag) hr rfl, runSignals_tosFromVarAddr_of_absent rfl]
    exact congrArg _ (finish_stop (.inr nofun))
  case jzsStay => exact exec_jzs_of_targetTaken hr (runSignals_jzsRow_of_not_zero hr hz) (.inl rfl)
  case jzsTake =>
    exact exec_jzs_of_targetTaken hr
      (runSignals_jumpIfZ_of_absent (s := s.targetTaken (.jzs none tag)) rfl hz _) (.inr nofun)
  case jmp => exact exec_of_argTaken hr rfl rfl (runSignals_jump_of_absent rfl _) (.inr nofun)

end Sys2Proof.Statements
end

section
/-! SUPPORT. Rows on a table given as an argument, the ceiling in a turn of the run loop, and what an instruction's rows
add to TICK_COUNT (spec/42_control_unit.md R238, R241 to R248). -/

open Sys2Proof.Statements

namespace Sys2Proof.Machine

/-! ### Rows of any table -/

/-- The row at a micro-address is the one executed, whatever the table (R233). -/
theorem stepRowIn_at {tbl : List Row} {s : State} {row : Row} (h : tbl[s.mpc]? = some row) :
    stepRowIn tbl s = runSignals row s := by
  simp [stepRowIn, h]

/-- The signals that end a row of the table are the sequencing ones (R245 (a)). -/
theorem endsRow_eq_sequences (g : Signal) : endsRow g = g.sequences := by
  cases g <;> rfl

theorem Signal.nextAddresses_of_not_sequences {g : Signal} (hg : g.sequences = false) (m : Nat) :
    g.nextAddresses m = [m] := by
  cases g with
  | mpcNext | mpcZero | mpcOpcode | halt => cases hg
  | _ => rfl

/-- A row without a sequencing signal leads nowhere else (R246). -/
theorem rowNext_of_not_sequences {row : Row} (hrow : ∀ g ∈ row, g.sequences = false) (m : Nat) :
    rowNext m row = [m] := by
  unfold rowNext
  cases hlast : row.getLast? with
  | none => rfl
  | some g => exact Signal.nextAddresses_of_not_sequences (hrow g (List.mem_of_getLast? hlast)) m

theorem runSignals_mpc_of_not_sequences {row : Row} {s : State} (hrow : ∀ g ∈ row, g.sequences = false)
    (hr : s.status = .running) : (runSignals row s).mpc = s.mpc := by
  have last : sequencesLast row = true :=
    List.all_eq_true.mpr fun g hg => by simp [hrow g (List.dropLast_subset _ hg)]
  obtain ⟨-, hm⟩ | ⟨-, hm⟩ := runSignals_mpc_cases last hr
  · rw [rowNext_of_not_sequences hrow] at hm
    exact List.mem_singleton.mp hm
  · exact hm

theorem execSignal_invalid (s : State) : execSignal .invalid s = s.raise .invalidSignal := rfl

/-- INVALID ends its row (R237). -/
theorem runSignals_invalid (rest : Row) (s : State) : runSignals (.invalid :: rest) s = s.raise .invalidSignal :=
  runSignals_cons_stopped (execSignal_invalid s) nofun

/-! ### The ceiling -/

theorem rowStep_limit {s : State} (hr : s.status = .running) (hm : s.mpc = 0)
    (hl : s.params.instrLimit ≤ s.instrCount) : rowStep s = .next { s with status := .limit } := by
  simp [rowStep, hr, hm, hl]

/-! ### Ticks -/

/-- A row is one tick where it lets the run go on, and none where it ends the run (R238). -/
theorem runSignals_tickCount (row : Row) {s : State} (hr : s.status = .running) :
    (runSignals row s).tickCount = s.tickCount + if (runSignals row s).status = .running then 1 else 0 := by
  induction row generalizing s with
  | nil => simp [hr]
  | cons g rest ih =>
    have same := execSignal_tickCount g s
    by_cases ht : (execSignal g s).status = .running
    · rw [runSignals_cons_running rfl ht, ← same]
      exact ih ht
    · rw [runSignals_cons_stopped rfl ht, if_neg ht, same, Nat.add_zero]

/-- Only HALT halts a run (R236). -/
theorem runSignals_not_halted {row : Row} {s : State} (hrow : .halt ∉ row) (hs : s.status ≠ .halted) :
    (runSignals row s).status ≠ .halted := by
  induction row generalizing s with
  | nil => exact hs
  | cons g rest ih =>
    obtain ⟨hg, hrest⟩ := List.ne_and_not_mem_of_not_mem_cons hrow
    have first : (execSignal g s).status ≠ .halted := by
      obtain same | ⟨k, -, raised⟩ := execSignal_status_cases (Ne.symm hg) s
      · rwa [same]
      · rw [raised]; nofun
    by_cases ht : (execSignal g s).status = .running
    · rw [runSignals_cons_running rfl ht]
      exact ih hrest first
    · rwa [runSignals_cons_stopped rfl ht]

/-- No row but 64 holds HALT. -/
theorem table_halt : ∀ m < nURows, ∀ row ∈ table[m]?, m ≠ 64 → .halt ∉ row := by decide

/-- A row of a microsequence other than HALT's leads to a row, or to the boundary, from which one row less is left. -/
theorem table_counts_down :
    ∀ m < nURows, ∀ row ∈ table[m]?, m ≠ 0 → m ∉ [1, 64] →
      ∀ n ∈ rowNext m row, n ∉ [1, 64] ∧ rowsLeft m = rowsLeft n + 1 := by decide

/-- The run is in a microsequence other than HALT's, or at its end, and the ticks counted and the rows left come to `n`
together. A row that faults is no tick and stays among the rows left. -/
structure State.TicksTo (n : Nat) (s : State) : Prop where
  row       : s.mpc < nURows
  inside    : s.mpc ∉ [1, 64]
  notHalted : s.status ≠ .halted
  total     : s.tickCount + rowsLeft s.mpc = n

/-- A row that completes moves one from the rows left to the ticks; one that ends the run moves none. -/
theorem State.TicksTo.stepRow {n : Nat} {s : State} (h : s.TicksTo n) (hr : s.status = .running) (h0 : s.mpc ≠ 0) :
    (stepRow s).TicksTo n := by
  obtain ⟨row, hrow⟩ := table_row h.row
  have noHalt : .halt ∉ row := table_halt _ h.row row hrow fun e => h.inside (by simp [e])
  have notHalted := runSignals_not_halted noHalt h.notHalted
  have ticks := runSignals_tickCount row hr
  have outcome := runSignals_mpc_cases (table_sequencesLast row (List.mem_of_getElem? hrow)) hr
  have hm := (stepRow_mpc hr h.row).1
  rw [stepRow_at hrow] at hm ⊢
  obtain ⟨ht, hn⟩ | ⟨ht, hn⟩ := outcome
  · obtain ⟨inside, left⟩ := table_counts_down _ h.row row hrow h0 h.inside _ hn
    have total := h.total
    rw [if_pos ht] at ticks
    exact ⟨hm, inside, notHalted, by omega⟩
  · rw [if_neg ht] at ticks
    exact ⟨hm, hn ▸ h.inside, notHalted, by rw [ticks, hn]; exact h.total⟩

/-- What one row inside an instruction keeps, the rest of its rows keep. -/
theorem finish_invariant {P : State → Prop}
    (keep : ∀ s : State, s.status = .running → s.mpc ≠ 0 → P s → P (stepRow s)) (fuel : Nat) {s : State}
    (h : P s) : P (finish fuel s) := by
  induction fuel generalizing s with
  | zero => exact h
  | succ fuel ih =>
    by_cases hs : s.mpc = 0 ∨ s.status ≠ .running
    · rwa [finish_stop hs]
    · obtain ⟨h0, hr⟩ := not_or.mp hs
      rw [finish_inside h0 (not_not.mp hr)]
      exact ih (keep s (not_not.mp hr) h0 h)

/-- A completed instruction other than HALT has taken all the rows of its microsequence, each one tick. -/
theorem exec_tickCount {i : Instr} {s t : State} (hi : i.opcode ≠ .halt) (h : exec i s = .next t)
    (done : t.status = .running ∨ t.status = .halted) : t.tickCount = s.tickCount + rowsLeft (firstRow i.opcode) := by
  have hr := running_of_exec h
  have first : ∀ o ≠ Opcode.halt, firstRow o ∉ [1, 64] := by
    intro o
    cases o <;> decide
  have start : (s.enter i).TicksTo (s.tickCount + rowsLeft (firstRow i.opcode)) :=
    ⟨firstRow_lt _, first _ hi, by simp [hr], rfl⟩
  cases (exec_of_running i hr).symm.trans h
  obtain ⟨-, -, notHalted, total⟩ := finish_invariant (fun _ hr h0 before => before.stepRow hr h0) nURows start
  have enough : (s.enter i).rowsToGo ≤ nURows := (State.rowsToGo_le_six (firstRow_lt _)).trans (by decide)
  have boundary := (finish_is_rows (firstRow_lt _) enough).2 (done.resolve_right notHalted)
  rwa [boundary] at total

/-- The ticks of R248 are the two fetch rows and the rows of the microsequence. -/
theorem ticks_eq_rows {o : Opcode} (h : o ≠ .halt) : ticks o = 2 + rowsLeft (firstRow o) := by
  cases o with
  | halt => exact absurd rfl h
  | _ => decide

end Sys2Proof.Machine
end

section
/-! PROOFS. The statements of spec/42_control_unit.md. -/

open Sys2Proof.Machine

namespace Sys2Proof.Statements

/-- Settles O11: where no signal of a row sequences, the row leads to itself, whether it completes or faults. -/
theorem rowWithoutMicroAddressSignalKeepsMpc : Obligations.RowWithoutMicroAddressSignalKeepsMpc := by
  unfold Obligations.RowWithoutMicroAddressSignalKeepsMpc
  intro tbl row s hr hrow hat
  have same : (stepRowIn tbl s).mpc = s.mpc := by
    rw [stepRowIn_at hat]
    exact runSignals_mpc_of_not_sequences (fun g hg => endsRow_eq_sequences g ▸ hrow g hg) hr
  exact ⟨same, same ▸ hat⟩

/-- Settles O27: two ticks for the fetch, and one for each row of the microsequence, all of which a completed
instruction takes; the row of HALT is none. -/
theorem ticksPerInstruction : Obligations.TicksPerInstruction := by
  unfold Obligations.TicksPerInstruction
  intro s t i ready _ hcell hstep done
  have h : exec i (s.fetched i) = .next t := (step_of_instr ready hcell).symm.trans hstep
  by_cases hi : i.opcode = .halt
  · cases (exec_halt hi (running_of_exec h)).symm.trans h
    rw [hi]
    rfl
  · rw [exec_tickCount hi h done, ticks_eq_rows hi]
    exact Nat.add_assoc _ _ _

/-- Settles O28: the dispatch counts the instruction, and no row of a microsequence counts; the two faults of the fetch
come before the dispatch. -/
theorem instructionCountRisesPerDispatch : Obligations.InstructionCountRisesPerDispatch := by
  unfold Obligations.InstructionCountRisesPerDispatch
  intro s t ready hstep
  have ⟨_, hm, _⟩ := ready
  refine ⟨fun ⟨i, hcell⟩ => ?_, fun noInstr => ?_⟩
  · obtain ⟨-, count, -⟩ := exec_common_frame ((step_of_instr ready hcell).symm.trans hstep)
    exact count
  · obtain rfl | rfl | ⟨w, rfl⟩ | ⟨i, hcell, -⟩ := step_boundary_cases hm hstep
    · rfl
    · rfl
    · rfl
    · exact absurd ⟨i, hcell⟩ noInstr

/-- Settles O12: each property is read off the fixed table. -/
theorem microcodeTableIsWellBuilt : Obligations.MicrocodeTableIsWellBuilt := by
  unfold Obligations.MicrocodeTableIsWellBuilt
  exact ⟨table_length, by decide, by decide, by decide, by decide, by decide, by decide, by decide, by decide⟩

/-- Settles O13: the row reaches INVALID in the state that the signals before it have left, and stops there. -/
theorem invalidSignalEndsTheRun : Obligations.InvalidSignalEndsTheRun := by
  unfold Obligations.InvalidSignalEndsTheRun
  refine ⟨fun s hr hm => ⟨?_, ?_⟩, fun g => ?_⟩
  · rw [stepRowIn_at (row := [.invalid]) (by rw [hm]; rfl)]
    exact runSignals_invalid [] s
  · rw [stepRowIn_at (row := [.arFromPc, .invalid, .memRead]) (by rw [hm]; rfl),
      runSignals_cons_running (t := { s with ar := s.pc }) rfl hr]
    exact runSignals_invalid [.memRead] _
  · cases g with
    | invalid => exact ⟨fun _ => rfl, fun _ => rfl⟩
    | _ => exact ⟨nofun, nofun⟩

/-- Settles O21: rows 0 and 1 bring the instruction in the cell at PC into IR and dispatch it. -/
theorem stepRunsTheDecodedInstruction : Obligations.StepRunsTheDecodedInstruction := by
  unfold Obligations.StepRunsTheDecodedInstruction
  intro s i ready low high hcell
  exact step_of_instr ready (memRead_eq_ok.mpr ⟨⟨low, high⟩, hcell⟩)

/-- Settles O24: both steps test the ceiling at a boundary, and only there. -/
theorem ceilingEndsRunAtBoundary : Obligations.CeilingEndsRunAtBoundary := by
  unfold Obligations.CeilingEndsRunAtBoundary
  intro s hr
  exact ⟨fun hm hl => ⟨step_limit hr hm hl, rowStep_limit hr hm hl⟩,
    fun hm hrow => rowStep_row hr hrow fun ⟨boundary, _⟩ => hm boundary⟩

end Sys2Proof.Statements
end

section
/-! SUPPORT. What a binary operation comes to by the elements it finds on the stack, and where the floor quotient and the
floor remainder of Words lie (spec/43_arithmetic.md R270, R274, R275). -/

open Sys2Proof.Statements

namespace Sys2Proof.Machine

/-! ### Two elements or more -/

section
variable {s : State} {S : List Int} {y x : Int} (hs : s.stack = S ++ [y, x])
include hs

theorem popped_of_two : s.popped = some x := popped_concat (S := S ++ [y]) (by simp [hs])

theorem pop_popped_of_two : s.pop.popped = some y := popped_concat (S := S) (by simp [hs])

theorem stack_below_two : s.stack.dropLast.dropLast = S := by simp [hs]

theorem binaryDone_eq_arithmeticDone (i : Instr) (r : Int) :
    s.binaryDone i r = arithmeticDone s i.opcode i.arg i.sourceTag S y x r := by
  simp only [State.binaryDone, State.resultTaken, State.operandsTaken, popped_of_two hs, pop_popped_of_two hs,
    stack_below_two hs]
  rfl

theorem operandsTaken_raise_eq_divisorZero (i : Instr) (h0 : y = 0) :
    (s.operandsTaken i).raise .divisionByZero =
      divisorZero s i.opcode i.arg i.sourceTag (firstRow i.opcode + 2) S x := by
  simp only [State.raise, State.operandsTaken, popped_of_two hs, pop_popped_of_two hs, State.pop_stack,
    State.enter_stack, stack_below_two hs, h0]
  rfl

end

/-! ### Fewer than two elements -/

theorem operandsTaken_raise_eq_operandsMissing {s : State} {x : OptWord} (hs : s.stack = x.toList) (i : Instr) :
    (s.operandsTaken i).raise .operandAbsent =
      operandsMissing s i.opcode i.arg i.sourceTag (firstRow i.opcode + 2) x := by
  cases x <;> simp [State.raise, State.operandsTaken, State.pop, State.popped, State.enter, operandsMissing, hs]

/-! ### The instruction as a whole -/

section
variable {i : Instr} {k : AluOp} {s : State} (hk : aluOperation i.opcode = some k)
include hk

/-- On a stack of fewer than two elements the second operand is absent (R270). -/
theorem runs_operandsMissing (hr : s.status = .running) {x : OptWord} (hs : s.stack = x.toList) :
    Runs i s (operandsMissing s i.opcode i.arg i.sourceTag (firstRow i.opcode + 2) x) := by
  have absent : (s.operandsTaken i).aluB = none := by
    cases x <;> simp [State.operandsTaken, State.pop, State.popped, hs]
  rw [Runs, exec_binary_of_error hk hr (aluOp_of_absent (.inr absent)), operandsTaken_raise_eq_operandsMissing hs]

theorem faultsOnShortStack (hr : s.status = .running) : FaultsOnShortStack i (firstRow i.opcode + 2) s :=
  ⟨fun x => runs_operandsMissing hk hr (x := some x), runs_operandsMissing hk hr (x := none)⟩

section
variable (ready : Ready s) {S : List Int} {y x : Int} (hs : s.stack = S ++ [y, x])
include ready hs

/-- The operation is defined on its two operands, so it completes with their exact result (R270). -/
theorem runs_arithmeticDone (defined : ¬ (k.divides = true ∧ y = 0)) :
    Runs i s (arithmeticDone s i.opcode i.arg i.sourceTag S y x (exactResult k x y)) := by
  obtain ⟨hr, depth⟩ := ready
  have operation : (s.operandsTaken i).aluOp k = .ok ((s.operandsTaken i).setAlu (exactResult k x y)) :=
    aluOp_eq_ok.mpr ⟨x, y, popped_of_two hs, pop_popped_of_two hs, defined, rfl⟩
  rw [Runs, exec_binary_of_ok hk hr operation (room_of_operands depth (pop_popped_of_two hs)),
    binaryDone_eq_arithmeticDone hs]

/-- An operation that divides faults on the divisor 0, its operands already popped (R274, R275). -/
theorem runs_divisorZero (divides : k.divides = true) (h0 : y = 0) :
    Runs i s (divisorZero s i.opcode i.arg i.sourceTag (firstRow i.opcode + 2) S x) := by
  have fault : (s.operandsTaken i).aluOp k = .error .divisionByZero :=
    aluOp_of_zero_divisor (popped_of_two hs) (h0 ▸ pop_popped_of_two hs) divides
  rw [Runs, exec_binary_of_error hk ready.1 fault, operandsTaken_raise_eq_divisorZero hs i h0]

end

/-- An operation that does not divide is defined on any two operands (R270). -/
theorem runs_of_not_divides (total : k.divides = false) (ready : Ready s) :
    (∀ (S : List Int) (y x : Int), s.stack = S ++ [y, x] →
      Runs i s (arithmeticDone s i.opcode i.arg i.sourceTag S y x (exactResult k x y))) ∧
    FaultsOnShortStack i (firstRow i.opcode + 2) s :=
  ⟨fun _ _ _ hs => runs_arithmeticDone hk ready hs (by simp [total]), faultsOnShortStack hk ready.1⟩

end

/-! ### Quotient and remainder of Words -/

/-- The Word range by two lower bounds, as the characterisation of the floor quotient gives them. -/
theorem isWord_iff {q : Int} : IsWord q ↔ -2147483648 ≤ q ∧ ¬ 2147483648 ≤ q := by
  rw [IsWord, wordMin, wordMax]
  omega

/-- The one quotient of a Word that is no Word is `2^31` (R274). -/
theorem overflow_floordiv_iff {x y : Int} (hx : IsWord x) (h0 : y ≠ 0) :
    overflow (floordiv x y) = true ↔ x = -2147483648 ∧ y = -1 := by
  rw [overflow_eq_true_iff, isWord_iff]
  rw [isWord_iff] at hx
  obtain neg | pos := lt_or_gt_of_ne h0
  · rw [le_floordiv_iff_of_neg neg, le_floordiv_iff_of_neg neg]
    omega
  · rw [le_floordiv_iff_of_pos pos, le_floordiv_iff_of_pos pos]
    omega

/-- The remainder lies between 0 and its divisor (R275). -/
theorem floormod_isWord (x : Int) {y : Int} (hy : IsWord y) (h0 : y ≠ 0) : IsWord (floormod x y) := by
  rw [isWord_iff] at hy ⊢
  obtain neg | pos := lt_or_gt_of_ne h0
  · have := floormod_range_of_neg x neg
    omega
  · have := floormod_range_of_pos x pos
    omega

/-- The remainder is negative for no divisor above 0 (R275). -/
theorem divisor_of_floormod_neg {x y : Int} (h : floormod x y < 0) : y < 0 ∨ y = 0 :=
  le_iff_lt_or_eq.mp (not_lt.mp fun pos => h.not_ge (floormod_range_of_pos x pos).1)

theorem floormod_eq_zero_iff {x y : Int} : floormod x y = 0 ↔ y ∣ x := by
  rw [floormod_eq_fmod]
  exact Int.dvd_iff_fmod_eq_zero.symm

/-- The wrap never applies to a remainder, and V is 0 (R275). -/
theorem arithmeticDone_floormod (s : State) (o : Opcode) (arg : OptWord) (tag : Option SourceTag) (S : List Int)
    (x : Int) {y : Int} (hy : IsWord y) (h0 : y ≠ 0) :
    arithmeticDone s o arg tag S y x (floormod x y) =
      { arithmeticDone s o arg tag S y x (floormod x y) with
        tos    := some (floormod x y)
        aluRes := floormod x y
        stack  := S ++ [floormod x y]
        flagZ  := decide (y ∣ x)
        flagV  := false } := by
  have word := floormod_isWord x hy h0
  have inRange : (arithmeticDone s o arg tag S y x (floormod x y)).flagV = false := overflow_eq_false_iff.mpr word
  rw [← inRange]
  simp only [arithmeticDone, wrap_of_isWord word, floormod_eq_zero_iff]

end Sys2Proof.Machine
end

section
/-! PROOFS. The statements of spec/43_arithmetic.md. -/

open Sys2Proof.Machine

namespace Sys2Proof.Statements

/-- Settles O29: addition is defined on any two operands. -/
theorem sumPushesWrappedSum : Obligations.SumPushesWrappedSum := by
  unfold Obligations.SumPushesWrappedSum
  exact ⟨fun arg tag _ => runs_of_not_divides (i := .sum arg tag) rfl rfl, by decide, by decide, by decide, by decide,
    by decide⟩

/-- Settles O30: subtraction is defined on any two operands, the top being the first. -/
theorem subPushesWrappedDifference : Obligations.SubPushesWrappedDifference := by
  unfold Obligations.SubPushesWrappedDifference
  exact ⟨fun arg tag _ => runs_of_not_divides (i := .sub arg tag) rfl rfl, by decide, by decide, by decide, by decide⟩

/-- Settles O31: multiplication is defined on any two operands. -/
theorem mulPushesWrappedProduct : Obligations.MulPushesWrappedProduct := by
  unfold Obligations.MulPushesWrappedProduct
  have timesZero (w : Int) : AluGives .mul w 0 0 false true false := by
    rw [AluGives, exactResult, mul_zero]
    decide
  exact ⟨fun arg tag _ => runs_of_not_divides (i := .mul arg tag) rfl rfl, by decide, by decide, by decide, by decide,
    timesZero, by decide⟩

/-- Settles O32: division is defined on a divisor other than 0 and faults on 0; its quotient is bounded by the
characterisation of R143. -/
theorem divPushesWrappedFloorQuotient : Obligations.DivPushesWrappedFloorQuotient := by
  unfold Obligations.DivPushesWrappedFloorQuotient
  refine ⟨fun arg tag s ready => ⟨fun S y x hs => ⟨fun h0 => ?_, fun h0 => ?_⟩, ?_⟩,
    fun x y hx _ h0 => overflow_floordiv_iff hx h0, by decide, by decide, by decide, by decide, by decide, by decide⟩
  · exact runs_arithmeticDone (i := .div arg tag) rfl ready hs fun zero => h0 zero.2
  · exact runs_divisorZero (i := .div arg tag) rfl ready hs rfl h0
  · exact faultsOnShortStack (i := .div arg tag) rfl ready.1

/-- Settles O33: as for DIV, and the remainder by a Word is a Word, so what is pushed is the remainder itself. -/
theorem modPushesFloorRemainder : Obligations.ModPushesFloorRemainder := by
  unfold Obligations.ModPushesFloorRemainder
  refine ⟨fun arg tag s ready => ⟨fun S y x hs _ hy => ⟨fun h0 => ?_, divisor_of_floormod_neg, fun h0 => ?_⟩, ?_⟩,
    by decide, by decide, by decide, by decide, by decide, by decide⟩
  · rw [← arithmeticDone_floormod s .mod arg tag S x hy h0]
    exact runs_arithmeticDone (i := .mod arg tag) rfl ready hs fun zero => h0 zero.2
  · exact runs_divisorZero (i := .mod arg tag) rfl ready hs rfl h0
  · exact faultsOnShortStack (i := .mod arg tag) rfl ready.1

end Sys2Proof.Statements
end

section
/-! SUPPORT. What a binary operation comes to whose result is the truth of a relation (spec/44_comparison.md R290). -/

open Sys2Proof.Statements

namespace Sys2Proof.Machine

/-- A truth value is a Word and not negative, so the wrap keeps it and N = V = 0; it is 0, and Z = 1, where the
relation is false (R290). -/
theorem arithmeticDone_truth (s : State) (o : Opcode) (arg : OptWord) (tag : Option SourceTag) (S : List Int)
    (y x : Int) (p : Bool) :
    arithmeticDone s o arg tag S y x (truth p) = comparisonDone s o arg tag S y x p := by
  cases p with
  | true  => rfl
  | false => rfl

/-- An operation that answers the truth of a relation between its operands, the top being the first (R290). -/
theorem runs_of_relation {i : Instr} {k : AluOp} {s : State} {p : Int → Int → Bool}
    (hk : aluOperation i.opcode = some k) (total : k.divides = false)
    (relation : ∀ x y, exactResult k x y = truth (p x y)) (ready : Ready s) :
    (∀ (S : List Int) (y x : Int), s.stack = S ++ [y, x] →
      Runs i s (comparisonDone s i.opcode i.arg i.sourceTag S y x (p x y))) ∧
    FaultsOnShortStack i (firstRow i.opcode + 2) s := by
  obtain ⟨completes, faults⟩ := runs_of_not_divides hk total ready
  refine ⟨fun S y x hs => ?_, faults⟩
  rw [← arithmeticDone_truth, ← relation]
  exact completes S y x hs

end Sys2Proof.Machine
end

section
/-! PROOFS. The statements of spec/44_comparison.md. -/

open Sys2Proof.Machine

namespace Sys2Proof.Statements

/-- Settles O34: operation 6 answers the truth of equality. -/
theorem eqPushesEquality : Obligations.EqPushesEquality := by
  unfold Obligations.EqPushesEquality
  have equality (x y : Int) : exactResult .eq x y = truth (decide (x = y)) := rfl
  exact ⟨fun arg tag _ => runs_of_relation (i := .eq arg tag) rfl rfl equality, by decide, by decide, by decide,
    by decide⟩

/-- Settles O35: operation 5 answers the truth of inequality. -/
theorem notEqPushesInequality : Obligations.NotEqPushesInequality := by
  unfold Obligations.NotEqPushesInequality
  have inequality (x y : Int) : exactResult .ne x y = truth (decide (x ≠ y)) := rfl
  exact ⟨fun arg tag _ => runs_of_relation (i := .notEq arg tag) rfl rfl inequality, by decide, by decide⟩

/-- Settles O36: operation 8 answers whether the top, its first operand, is the greater. -/
theorem morePushesTopGreater : Obligations.MorePushesTopGreater := by
  unfold Obligations.MorePushesTopGreater
  have greater (x y : Int) : exactResult .gt x y = truth (decide (x > y)) := rfl
  exact ⟨fun arg tag _ => runs_of_relation (i := .more arg tag) rfl rfl greater, by decide, by decide, by decide,
    by decide⟩

/-- Settles O37: operation 7 answers whether the top, its first operand, is the smaller. -/
theorem lessPushesTopSmaller : Obligations.LessPushesTopSmaller := by
  unfold Obligations.LessPushesTopSmaller
  have smaller (x y : Int) : exactResult .lt x y = truth (decide (x < y)) := rfl
  exact ⟨fun arg tag _ => runs_of_relation (i := .less arg tag) rfl rfl smaller, by decide, by decide, by decide⟩

end Sys2Proof.Statements
end

section
/-! SUPPORT. What a push comes to that leaves the stack within its bound, and the microsequences of DUP, DROP and SWAP
(spec/10_state.md R45, R46; spec/45_stack.md R310 to R312). -/

open Sys2Proof.Statements

namespace Sys2Proof.Machine

/-! ### Pushes -/

/-- A push that leaves the stack within its bound; an absent value adds nothing (R45). -/
theorem push_of_depth {s : State} {v : OptWord} (depth : (s.stack ++ v.toList).length ≤ stackDepth) :
    s.push v = .ok { s with stack := s.stack ++ v.toList } := by
  cases v with
  | none => simp
  | some w => exact push_of_room w (by simpa using depth)

/-- DS_PUSH where the stack after it, `S`, is within its bound (R183). -/
theorem runSignals_dsPush {s : State} {rest : Row} {S : List Int} (hr : s.status = .running)
    (pushed : s.stack ++ s.tos.toList = S) (depth : S.length ≤ stackDepth) :
    runSignals (.dsPush :: rest) s = runSignals rest { s with stack := S } := by
  subst pushed
  exact runSignals_cons_running (execSignal_of_ok (g := .dsPush) (push_of_depth depth)) hr

/-- DS_PUSH of a present TOS on a full stack ends the run with the stack as it is (R183, R403). -/
theorem runSignals_dsPush_of_full {s : State} {rest : Row} {w : Int} (hv : s.tos = some w)
    (full : stackDepth ≤ s.stack.length) : runSignals (.dsPush :: rest) s = s.raise .stackOverflow :=
  runSignals_cons_stopped (execSignal_of_error (g := .dsPush) (by rw [signalEffect, hv, push_of_full w full])) nofun

/-- How the rows end that complete an instruction without a jump. -/
theorem runSignals_pcInc_mpcZero {s : State} (hr : s.status = .running) :
    runSignals [.pcInc, .mpcZero] s = { s with pc := s.pc + 1, mpc := 0, tickCount := s.tickCount + 1 } := by
  simp [runSignals, execSignal, signalEffect, hr]

/-- The last row of the instructions that push one result (R241). -/
theorem runSignals_pushRow {s : State} {S : List Int} (hr : s.status = .running)
    (pushed : s.stack ++ s.tos.toList = S) (depth : S.length ≤ stackDepth) :
    runSignals [.dsPush, .pcInc, .mpcZero] s =
      { s with stack := S, pc := s.pc + 1, mpc := 0, tickCount := s.tickCount + 1 } :=
  (runSignals_dsPush hr pushed depth).trans (runSignals_pcInc_mpcZero hr)

/-! ### What pops leave for pushes -/

/-- What a pop yields, put back on what it leaves, is the stack before, an empty one included (R46). -/
theorem dropLast_append_top (S : List Int) : S.dropLast ++ S.getLast?.toList = S := by
  cases h : S.getLast? with
  | none => simp [List.getLast?_eq_none_iff.mp h]
  | some x => exact List.dropLast_append_getLast? x h

/-- What two pops yield, put back in the order they came, makes the stack as deep as before. -/
theorem length_append_two_tops (S : List Int) :
    (S.dropLast.dropLast ++ S.getLast?.toList ++ S.dropLast.getLast?.toList).length = S.length := by
  have first := congrArg List.length (dropLast_append_top S)
  have second := congrArg List.length (dropLast_append_top S.dropLast)
  simp only [List.length_append] at *
  omega

section
variable {arg : OptWord} {tag : Option SourceTag} {s : State}

/-! ### DROP -/

/-- DROP is one row, which pops (R311). -/
theorem exec_drop (hr : s.status = .running) :
    exec (.drop arg tag) s = .next
      { inRow s .drop arg tag 0 with
        stack := s.stack.dropLast, pc := s.pc + 1, tickCount := s.tickCount + 1 } := by
  rw [exec_eq_firstRow (.drop arg tag) hr rfl,
    runSignals_cons_running (t := (s.enter (.drop arg tag)).pop) rfl hr,
    runSignals_pcInc_mpcZero (s := (s.enter (.drop arg tag)).pop) hr, finish_stop (.inl rfl)]
  rfl

/-! ### DUP -/

/-- The state after row 39 of DUP: the top is in BR and TOS, and back on the stack. -/
def State.topCopied (s : State) (i : Instr) : State :=
  { s.enter i with
    br := s.popped, tos := s.popped, mpc := firstRow i.opcode + 2, tickCount := s.tickCount + 2 }

theorem exec_dup_eq_topCopied (ready : Ready s) :
    exec (.dup arg tag) s = .next (finish 69 (s.topCopied (.dup arg tag))) := by
  obtain ⟨hr, depth⟩ := ready
  have row : runSignals [.tosFromBr, .dsPush, .mpcNext] (s.topTaken (.dup arg tag)) = s.topCopied (.dup arg tag) :=
    calc runSignals [.tosFromBr, .dsPush, .mpcNext] (s.topTaken (.dup arg tag))
      _ = runSignals [.dsPush, .mpcNext] { s.topTaken (.dup arg tag) with tos := s.popped } :=
        runSignals_cons_running rfl hr
      _ = runSignals [.mpcNext] { s.topTaken (.dup arg tag) with tos := s.popped, stack := s.stack } :=
        runSignals_dsPush hr (dropLast_append_top s.stack) depth
      _ = s.topCopied (.dup arg tag) := runSignals_cons_running rfl hr
  rw [exec_eq_topTaken hr rfl, finish_row (s := s.topTaken _) (Nat.succ_ne_zero _) hr rfl, row]

/-- Where a second copy of the top fits, or there is no top, DUP completes (R310). -/
theorem exec_dup_of_depth (ready : Ready s) {S : List Int} (pushed : s.stack ++ s.popped.toList = S)
    (depth : S.length ≤ stackDepth) :
    exec (.dup arg tag) s = .next
      { inRow s .dup arg tag 0 with
        br := s.popped, tos := s.popped, stack := S, pc := s.pc + 1, tickCount := s.tickCount + 3 } := by
  have row := runSignals_pushRow (s := s.topCopied (.dup arg tag)) ready.1 pushed depth
  rw [exec_dup_eq_topCopied ready]
  exact congrArg _ (finish_last_row (s := s.topCopied _) (Nat.succ_ne_zero _) ready.1 rfl row (.inl rfl))

/-- On a full stack DUP faults with the top pushed back (R310). -/
theorem exec_dup_of_full (ready : Ready s) {x : Int} (hx : s.popped = some x) (full : stackDepth ≤ s.stack.length) :
    exec (.dup arg tag) s = .next ((s.topCopied (.dup arg tag)).raise .stackOverflow) := by
  have row := runSignals_dsPush_of_full (s := s.topCopied (.dup arg tag)) (rest := [.pcInc, .mpcZero]) hx full
  rw [exec_dup_eq_topCopied ready]
  exact congrArg _ (finish_last_row (s := s.topCopied _) (Nat.succ_ne_zero _) ready.1 rfl row (.inr nofun))

/-! ### SWAP -/

/-- The state after row 43 of SWAP: the top is in BR and TOS. -/
def State.topStaged (s : State) (i : Instr) : State :=
  { s.topTaken i with tos := s.popped, mpc := firstRow i.opcode + 2, tickCount := s.tickCount + 2 }

/-- The state after row 44 of SWAP: the top is in TOS, the element below it in BR. -/
def State.topTwoTaken (s : State) (i : Instr) : State :=
  { (s.topStaged i).pop with br := s.pop.popped, mpc := firstRow i.opcode + 3, tickCount := s.tickCount + 3 }

/-- The state after row 45 of SWAP: the top is back, on the stack below the two. -/
def State.topReturned (s : State) (i : Instr) : State :=
  { s.topTwoTaken i with
    stack     := s.stack.dropLast.dropLast ++ s.popped.toList
    mpc       := firstRow i.opcode + 4
    tickCount := s.tickCount + 4 }

theorem exec_swap_eq_topTwoTaken (hr : s.status = .running) :
    exec (.swap arg tag) s = .next (finish 68 (s.topTwoTaken (.swap arg tag))) := by
  have row43 : runSignals [.tosFromBr, .mpcNext] (s.topTaken (.swap arg tag)) = s.topStaged (.swap arg tag) := by
    simp [runSignals, execSignal, signalEffect, State.topStaged, State.topTaken, hr]
  have row44 : runSignals [.brFromPop, .mpcNext] (s.topStaged (.swap arg tag)) = s.topTwoTaken (.swap arg tag) := by
    simp [runSignals, execSignal, signalEffect, State.topTwoTaken, State.topStaged, State.topTaken, State.popped, hr]
  rw [exec_eq_topTaken hr rfl, finish_row (s := s.topTaken _) (Nat.succ_ne_zero _) hr rfl, row43,
    finish_row (s := s.topStaged _) (Nat.succ_ne_zero _) hr rfl, row44]

/-- SWAP pushes what its two pops yielded in the order they came, an absent one not at all (R312). -/
theorem exec_swap (ready : Ready s) {S : List Int}
    (pushed : s.stack.dropLast.dropLast ++ s.popped.toList ++ s.pop.popped.toList = S) :
    exec (.swap arg tag) s = .next
      { inRow s .swap arg tag 0 with
        br := s.pop.popped, tos := s.pop.popped, stack := S, pc := s.pc + 1, tickCount := s.tickCount + 5 } := by
  obtain ⟨hr, depth⟩ := ready
  have depth' : S.length ≤ stackDepth := pushed ▸ (length_append_two_tops s.stack).trans_le depth
  have room : (s.stack.dropLast.dropLast ++ s.popped.toList).length ≤ stackDepth :=
    (List.prefix_append _ _).length_le.trans (pushed ▸ depth')
  have row45 : runSignals [.dsPush, .mpcNext] (s.topTwoTaken (.swap arg tag)) = s.topReturned (.swap arg tag) := by
    rw [runSignals_dsPush (s := s.topTwoTaken _) hr rfl room]
    exact runSignals_cons_running rfl hr
  have row46 := calc runSignals [.tosFromBr, .dsPush, .pcInc, .mpcZero] (s.topReturned (.swap arg tag))
    _ = runSignals [.dsPush, .pcInc, .mpcZero] { s.topReturned (.swap arg tag) with tos := s.pop.popped } :=
      runSignals_cons_running rfl hr
    _ = _ := runSignals_pushRow hr pushed depth'
  rw [exec_swap_eq_topTwoTaken hr, finish_row (s := s.topTwoTaken _) (Nat.succ_ne_zero _) hr rfl, row45]
  exact congrArg _ (finish_last_row (s := s.topReturned _) (Nat.succ_ne_zero _) hr rfl row46 (.inl rfl))

end

end Sys2Proof.Machine
end

section
/-! PROOFS. The statements of spec/45_stack.md. -/

open Sys2Proof.Machine

namespace Sys2Proof.Statements

/-- Settles O38: the top is pushed back, and its second copy fits, does not, or is absent. -/
theorem dupCopiesTop : Obligations.DupCopiesTop := by
  unfold Obligations.DupCopiesTop
  intro arg tag s ready
  refine ⟨fun S x hs => ⟨fun room => ?_, fun full => ?_⟩, fun hs => ?_⟩
  · have pushed : s.stack ++ s.popped.toList = S ++ [x, x] := by simp [popped_concat hs, hs]
    have depth : (S ++ [x, x]).length ≤ stackDepth := by
      rw [hs, List.length_append] at room
      exact List.length_append.trans_le room
    have done := exec_dup_of_depth (arg := arg) (tag := tag) ready pushed depth
    rwa [popped_concat hs] at done
  · have fault := exec_dup_of_full (arg := arg) (tag := tag) ready (popped_concat hs) full.ge
    rw [State.topCopied, popped_concat hs] at fault
    exact fault
  · have done := exec_dup_of_depth (arg := arg) (tag := tag) ready (S := s.stack) (by simp [popped_empty hs]) ready.2
    rwa [popped_empty hs] at done

/-- Settles O39: the one row pops, which on an empty stack changes nothing. -/
theorem dropRemovesTop : Obligations.DropRemovesTop := by
  unfold Obligations.DropRemovesTop
  intro arg tag s hr
  have done := exec_drop (arg := arg) (tag := tag) hr
  refine ⟨fun S x hs => ?_, fun hs => ?_⟩
  · rwa [hs, List.dropLast_concat] at done
  · rw [hs, List.dropLast_nil, ← hs] at done
    exact done

/-- Settles O40: the two elements go back in the order they came; with fewer than two the second pop yields nothing, and
what the first yielded is pushed back. -/
theorem swapExchangesTopTwo : Obligations.SwapExchangesTopTwo := by
  unfold Obligations.SwapExchangesTopTwo
  intro arg tag s ready
  refine ⟨fun S y x hs => ?_, fun x short => ?_⟩
  · have pushed : s.stack.dropLast.dropLast ++ s.popped.toList ++ s.pop.popped.toList = S ++ [x, y] := by
      simp [stack_below_two hs, popped_of_two hs, pop_popped_of_two hs]
    have done := exec_swap (arg := arg) (tag := tag) ready pushed
    rwa [pop_popped_of_two hs] at done
  · have below : s.stack.dropLast = [] := by obtain hs | hs := short <;> simp [hs]
    have absent : s.pop.popped = none := popped_empty below
    have pushed : s.stack.dropLast.dropLast ++ s.popped.toList ++ s.pop.popped.toList = s.stack := by
      rw [absent, Option.toList_none, List.append_nil, below, List.dropLast_nil, ← below]
      exact dropLast_append_top s.stack
    have done := exec_swap (arg := arg) (tag := tag) ready pushed
    rwa [absent] at done

/-- Settles O41: the arg taken into TOS is pushed, or does not fit. -/
theorem pushAppendsArgument : Obligations.PushAppendsArgument := by
  unfold Obligations.PushAppendsArgument
  intro v tag s ⟨hr, _⟩
  refine ⟨fun room => ?_, fun full => ?_⟩
  · have row := runSignals_pushRow (s := s.argTaken (.push (some v) tag)) (S := s.stack ++ [v]) hr rfl
      (by simpa using room)
    exact exec_of_argTaken hr rfl rfl row (.inl rfl)
  · have row := runSignals_dsPush_of_full (s := s.argTaken (.push (some v) tag)) (rest := [.pcInc, .mpcZero]) rfl
      full.ge
    exact exec_of_argTaken hr rfl rfl row (.inr nofun)

end Sys2Proof.Statements
end

section
/-! SUPPORT. A Word read from memory, and what ADDR_ON_TOP and VAR_ON_TOP come to by that read
(spec/46_memory_ops.md R330, R332). -/

open Sys2Proof.Statements

namespace Sys2Proof.Machine

/-! ### Words in memory -/

/-- Inside the memory, the kind of the cell decides the read (R179). -/
theorem memWord_of_addressable {s : State} {a : Int} (h : s.addressable a) :
    s.memWord a = cellWord (s.mem.read a.toNat) := by
  simp only [State.memWord, memRead_of_addressable h, ok_bind]

/-- Outside the memory there is no cell to look at (R413). -/
theorem memWord_of_not_addressable {s : State} {a : Int} (h : ¬ s.addressable a) :
    s.memWord a = .error .memoryOutOfRange := by
  simp only [State.memWord, memRead_of_not_addressable h, error_bind]

/-- Where there is a cell 0, its kind and then the sum decide the base-relative immediate of a present arg (R181). -/
theorem varAddress_some {s : State} (hm : 0 < s.params.memSize) (v : Int) :
    s.varAddress (some v) = cellWord (s.mem.read 0) >>= fun base => checkedWord (v + base) := by
  have inside : s.addressable 0 := ⟨le_rfl, Int.natCast_pos.mpr hm⟩
  simp only [State.varAddress, need_some, ok_bind, memWord_of_addressable inside, Int.toNat_zero]

/-! ### ADDR_ON_TOP -/

/-- The state after row 49, `w` being the base-relative immediate. -/
def State.varAddressTaken (s : State) (i : Instr) (w : Int) : State :=
  { s.enter i with tos := some w, mpc := firstRow i.opcode + 1, tickCount := s.tickCount + 1 }

section
variable {arg : OptWord} {tag : Option SourceTag} {s : State} {k : FaultKind} {w : Int}

/-- Without a base-relative immediate ADDR_ON_TOP faults at row 49 (R330). -/
theorem exec_addrOnTop_of_error (hr : s.status = .running) (he : s.varAddress arg = .error k) :
    exec (.addrOnTop arg tag) s = .next ((s.enter (.addrOnTop arg tag)).raise k) := by
  have effect : signalEffect .tosFromVarAddr (s.enter (.addrOnTop arg tag)) = .error k := bind_eq_error.mpr (.inl he)
  rw [exec_eq_firstRow (.addrOnTop arg tag) hr rfl, runSignals_cons_stopped (execSignal_of_error effect) nofun]
  exact congrArg _ (finish_stop (.inr nofun))

/-- With one it comes to what row 50 leaves (R330). -/
theorem exec_addrOnTop_of_ok {t : State} (hr : s.status = .running) (hw : s.varAddress arg = .ok w)
    (hrun : runSignals [.dsPush, .pcInc, .mpcZero] (s.varAddressTaken (.addrOnTop arg tag) w) = t)
    (ht : t.mpc = 0 ∨ t.status ≠ .running) : exec (.addrOnTop arg tag) s = .next t := by
  have effect : signalEffect .tosFromVarAddr (s.enter (.addrOnTop arg tag)) =
      .ok { s.enter (.addrOnTop arg tag) with tos := some w } := bind_eq_ok.mpr ⟨w, hw, rfl⟩
  have row49 : runSignals [.tosFromVarAddr, .mpcNext] (s.enter (.addrOnTop arg tag)) =
      s.varAddressTaken (.addrOnTop arg tag) w :=
    (runSignals_cons_running (execSignal_of_ok effect) hr).trans (runSignals_cons_running rfl hr)
  rw [exec_eq_firstRow (.addrOnTop arg tag) hr rfl, row49,
    finish_last_row (s := s.varAddressTaken _ w) (Nat.succ_ne_zero _) hr rfl hrun ht]

/-! ### VAR_ON_TOP, and SAVE_VAR where it has no address -/

variable {S : List Int} {x : Int}

/-- On an empty stack SAVE_VAR and VAR_ON_TOP fault at their second row (R331, R332). -/
theorem exec_of_empty_stack {i : Instr} (hi : i.opcode ∈ [Opcode.saveVar, .varOnTop]) (hr : s.status = .running)
    (hs : s.stack = []) :
    exec i s = .next
      { inRow s i.opcode i.arg i.sourceTag (firstRow i.opcode + 1) with
        br := none, tos := none, tickCount := s.tickCount + 1, status := .fault .operandAbsent } := by
  rw [exec_of_no_address hi hr (popped_empty hs), State.topTaken, popped_empty hs, pop_empty (s := s.enter i) hs]
  rfl

theorem addressTaken_of_concat (hs : s.stack = S ++ [x]) (i : Instr) :
    s.addressTaken i x =
      { s.enter i with
        br := some x, tos := some x, ar := x, stack := S, mpc := firstRow i.opcode + 2,
        tickCount := s.tickCount + 2 } := by
  simp [State.addressTaken, State.topTaken, popped_concat hs, State.pop, hs]

theorem exec_varOnTop_eq_loadRow (hr : s.status = .running) (hx : s.popped = some x) :
    exec (.varOnTop arg tag) s =
      .next (finish 68 (runSignals [.tosFromMem, .mpcNext] (s.addressTaken (.varOnTop arg tag) x))) := by
  rw [exec_eq_addressTaken (i := .varOnTop arg tag) (by simp [Instr.opcode]) hr hx,
    finish_row (s := s.addressTaken _ x) (Nat.succ_ne_zero _) hr rfl]

/-- Where no Word can be read at the address, VAR_ON_TOP faults at row 58 with the address popped (R332). -/
theorem exec_varOnTop_of_error (hr : s.status = .running) (hx : s.popped = some x) (he : s.memWord x = .error k) :
    exec (.varOnTop arg tag) s = .next ((s.addressTaken (.varOnTop arg tag) x).raise k) := by
  have effect : signalEffect .tosFromMem (s.addressTaken (.varOnTop arg tag) x) = .error k :=
    bind_eq_error.mpr (.inl he)
  rw [exec_varOnTop_eq_loadRow hr hx, runSignals_cons_stopped (execSignal_of_error effect) nofun]
  exact congrArg _ (finish_stop (.inr nofun))

/-- The state after row 58, `w` being the Word at the address `x`. -/
def State.wordLoaded (s : State) (i : Instr) (x w : Int) : State :=
  { s.addressTaken i x with tos := some w, mpc := firstRow i.opcode + 3, tickCount := s.tickCount + 3 }

/-- The Word that was read is pushed in the place of its address (R332). -/
theorem exec_varOnTop_of_ok (ready : Ready s) (hs : s.stack = S ++ [x]) (hw : s.memWord x = .ok w) :
    exec (.varOnTop arg tag) s = .next
      { inRow s .varOnTop arg tag 0 with
        br := some x, ar := x, tos := some w, stack := S ++ [w], pc := s.pc + 1, tickCount := s.tickCount + 4 } := by
  obtain ⟨hr, depth⟩ := ready
  have effect : signalEffect .tosFromMem (s.addressTaken (.varOnTop arg tag) x) =
      .ok { s.addressTaken (.varOnTop arg tag) x with tos := some w } := bind_eq_ok.mpr ⟨w, hw, rfl⟩
  have row58 : runSignals [.tosFromMem, .mpcNext] (s.addressTaken (.varOnTop arg tag) x) =
      s.wordLoaded (.varOnTop arg tag) x w :=
    (runSignals_cons_running (execSignal_of_ok effect) hr).trans (runSignals_cons_running rfl hr)
  have pushed : (s.wordLoaded (.varOnTop arg tag) x w).stack ++ [w] = S ++ [w] := by
    rw [State.wordLoaded, addressTaken_of_concat hs]
  have row59 := runSignals_pushRow (s := s.wordLoaded (.varOnTop arg tag) x w) hr pushed (by simpa [hs] using depth)
  rw [exec_varOnTop_eq_loadRow hr (popped_concat hs), row58,
    finish_last_row (s := s.wordLoaded _ x w) (Nat.succ_ne_zero _) hr rfl row59 (.inl rfl),
    State.wordLoaded, addressTaken_of_concat hs]
  rfl

end

end Sys2Proof.Machine
end

section
/-! PROOFS. The statements of spec/46_memory_ops.md. -/

open Sys2Proof.Machine

namespace Sys2Proof.Statements

/-- Settles O42: cell 0 and the sum decide whether there is an address to push, and then its push fits or does not. -/
theorem addrOnTopPushesVariableAddress : Obligations.AddrOnTopPushesVariableAddress := by
  unfold Obligations.AddrOnTopPushesVariableAddress
  intro v tag s ⟨hr, _⟩ hm
  have answer := varAddress_some hm v
  refine ⟨fun base hcell => ?_, fun j hcell => exec_addrOnTop_of_error hr (by rw [answer, hcell]; rfl)⟩
  rw [hcell] at answer
  have address (hw : IsWord (v + base)) : s.varAddress (some v) = .ok (v + base) :=
    answer.trans (checkedWord_of_isWord hw)
  refine ⟨fun hw room => ?_, fun hw full => ?_, fun hw => ?_⟩
  · have row := runSignals_pushRow (s := s.varAddressTaken (.addrOnTop (some v) tag) (v + base))
      (S := s.stack ++ [v + base]) hr rfl (by simpa using room)
    exact exec_addrOnTop_of_ok hr (address hw) row (.inl rfl)
  · have row := runSignals_dsPush_of_full (s := s.varAddressTaken (.addrOnTop (some v) tag) (v + base))
      (rest := [.pcInc, .mpcZero]) rfl full.ge
    exact exec_addrOnTop_of_ok hr (address hw) row (.inr nofun)
  · exact exec_addrOnTop_of_error hr (answer.trans (checkedWord_of_not_isWord hw))

/-- Settles O43: the two pops, the range check, and the laws of `Memory.write` for the memory it leaves. -/
theorem saveVarStoresBelowTopAtTop : Obligations.SaveVarStoresBelowTopAtTop := by
  unfold Obligations.SaveVarStoresBelowTopAtTop
  intro arg tag s ⟨hr, _⟩ hmem
  refine ⟨fun S y x hs => ⟨fun inside => ?_, fun outside => ?_⟩, fun x hs => ?_, fun hs => ?_⟩
  · have done := exec_saveVar_of_inside (i := .saveVar arg tag) rfl hr (popped_of_two hs) (pop_popped_of_two hs) inside
    rw [State.valueStored, State.valueLatched, stack_below_two hs] at done
    refine ⟨_, done, Memory.write_wf hmem _ _, fun a => ?_⟩
    split
    case isTrue ha => rw [← ha, Int.toNat_natCast, Memory.read_write_same hmem]
    case isFalse ha => exact Memory.read_write_other _ _ (by have := inside.1; omega)
  · have fault := exec_saveVar_of_outside (i := .saveVar arg tag) rfl hr (popped_of_two hs) (pop_popped_of_two hs)
      outside
    rw [State.valueLatched, stack_below_two hs] at fault
    exact fault
  · have below : s.pop.stack = [] := by simp [hs]
    have fault := exec_saveVar_of_no_value (i := .saveVar arg tag) rfl hr (popped_concat (S := []) hs)
      (popped_empty below)
    rw [State.valueTaken, popped_empty below, hs] at fault
    exact fault
  · exact exec_of_empty_stack (i := .saveVar arg tag) (by simp [Instr.opcode]) hr hs

/-- Settles O44: the address is popped, and the cell there gives a Word, which fits in its place, or a fault. -/
theorem varOnTopLoadsAddressedWord : Obligations.VarOnTopLoadsAddressedWord := by
  unfold Obligations.VarOnTopLoadsAddressedWord
  intro arg tag s ready
  refine ⟨fun S x hs => ?_, fun hs => ?_⟩
  · have fault {k : FaultKind} (he : s.memWord x = .error k) :=
      exec_varOnTop_of_error (arg := arg) (tag := tag) ready.1 (popped_concat hs) he
    rw [addressTaken_of_concat hs] at fault
    refine ⟨fun inside => ?_, fun outside => fault (memWord_of_not_addressable outside)⟩
    have cell := memWord_of_addressable inside
    exact ⟨fun w hc => exec_varOnTop_of_ok ready hs (by rw [cell, hc, cellWord_word]),
      fun j hc => fault (by rw [cell, hc, cellWord_instr])⟩
  · exact exec_of_empty_stack (i := .varOnTop arg tag) (by simp [Instr.opcode]) ready.1 hs

/-- Settles O60, from the two statements above: the store leaves the Word at `x`, where the load finds it. -/
theorem saveVarThenVarOnTopRoundTrips : Obligations.SaveVarThenVarOnTopRoundTrips := by
  unfold Obligations.SaveVarThenVarOnTopRoundTrips
  intro arg arg' tag tag' s S y x ready hmem hs low high
  obtain ⟨two, -⟩ := saveVarStoresBelowTopAtTop arg tag s ready hmem
  obtain ⟨stored, -⟩ := two S y x hs
  obtain ⟨m, save, -, reads⟩ := stored ⟨low, high⟩
  obtain ⟨hr, depth⟩ := ready
  have room : (S ++ [x]).length ≤ stackDepth := by
    simp only [hs, List.length_append, List.length_cons, List.length_nil] at depth ⊢
    omega
  have word : cellWord (m.read x.toNat) = .ok y := by simp [reads, Int.toNat_of_nonneg low]
  exact ⟨_, _, save, exec_varOnTop_of_ok (S := S) ⟨hr, room⟩ rfl
    (Eq.trans (memWord_of_addressable ⟨low, high⟩) word), hr, rfl, rfl⟩

end Sys2Proof.Statements
end

section
/-! SUPPORT. What the last rows of JZS and JMP leave where their target is present (spec/47_control_transfer.md R351,
R352). -/

namespace Sys2Proof.Machine

section
variable {s : State} {t : Int} (hr : s.status = .running) (hv : s.tos = some t)
include hr hv

/-- JUMP takes PC from TOS without a check of the target (R192). -/
theorem runSignals_jumpRow : runSignals [.jump, .mpcZero] s =
    { s with pc := t, mpc := 0, tickCount := s.tickCount + 1 } := by
  have jump : execSignal .jump s = { s with pc := t } := execSignal_of_ok (by simp [signalEffect, hv])
  rw [runSignals_cons_running jump hr]
  exact runSignals_cons_running rfl hr

/-- JUMP_IF_Z does so where Z = 1, and leaves PC where Z = 0 (R191). -/
theorem runSignals_jzsRow : runSignals [.jumpIfZ, .mpcZero] s =
    { s with pc := if s.flagZ = true then t else s.pc, mpc := 0, tickCount := s.tickCount + 1 } := by
  by_cases hz : s.flagZ = true
  · have jump : execSignal .jumpIfZ s = { s with pc := t } := execSignal_of_ok (by simp [signalEffect, hv, hz])
    rw [if_pos hz, runSignals_cons_running jump hr]
    exact runSignals_cons_running rfl hr
  · rw [if_neg hz, runSignals_jzsRow_of_not_zero hr (Bool.eq_false_of_not_eq_true hz)]

end

end Sys2Proof.Machine
end

section
/-! PROOFS. The statements of spec/47_control_transfer.md. -/

open Sys2Proof.Machine

namespace Sys2Proof.Statements

/-- Settles O45: row 60 takes the target and increments PC; row 61 replaces PC by the target where Z = 1. -/
theorem jzsJumpsIffZeroFlag : Obligations.JzsJumpsIffZeroFlag := by
  unfold Obligations.JzsJumpsIffZeroFlag
  intro t tag s hr
  exact exec_jzs_of_targetTaken hr (runSignals_jzsRow (s := s.targetTaken (.jzs (some t) tag)) hr rfl) (.inl rfl)

/-- Settles O46: row 62 takes the target, row 63 makes it PC. -/
theorem jmpSetsPc : Obligations.JmpSetsPc := by
  unfold Obligations.JmpSetsPc
  intro t tag s hr
  exact exec_of_argTaken hr rfl rfl (runSignals_jumpRow (s := s.argTaken (.jmp (some t) tag)) hr rfl) (.inl rfl)

/-- Settles O47: the one row ends the run; before it a fetched HALT has had the two rows of the fetch. -/
theorem haltEndsRunInPlace : Obligations.HaltEndsRunInPlace := by
  unfold Obligations.HaltEndsRunInPlace
  refine ⟨fun arg tag s hr => exec_halt rfl hr, fun arg tag s ⟨hr, atBoundary⟩ hc => ?_⟩
  exact (step_of_instr ⟨hr, atBoundary⟩ hc).trans (exec_halt rfl hr)

end Sys2Proof.Statements
end

section
/-! SUPPORT. The decimal form PRINT writes, and the microsequences of PRINT, EMIT and READ (spec/48_io.md R371 to
R374). -/

open Sys2Proof.Statements

namespace Sys2Proof.Machine

/-! ### The digits of a number -/

theorem digitsValue_concat (codes : List Nat) (c : Nat) :
    digitsValue (codes ++ [c]) = digitsValue codes * 10 + (c - 48) := by
  simp [digitsValue]

theorem le_digitCodes (fuel n : Nat) : ∀ c ∈ digitCodes fuel n, 48 ≤ c := by
  fun_induction digitCodes fuel n with
  | case1 n => exact fun _ hc => absurd hc List.not_mem_nil
  | case2 fuel n small => simp
  | case3 fuel n large ih =>
    intro c hc
    obtain hc | hc := List.mem_append.mp hc
    · exact ih c hc
    · rw [List.mem_singleton.mp hc]; omega

/-- With enough fuel no digit is lost. -/
theorem digitsValue_digitCodes {fuel n : Nat} (enough : n < fuel) : digitsValue (digitCodes fuel n) = n := by
  fun_induction digitCodes fuel n with
  | case1 n => omega
  | case2 fuel n small => simp [digitsValue]
  | case3 fuel n large ih => rw [digitsValue_concat, ih (by omega)]; omega

theorem digitCodes_ne_nil {fuel n : Nat} (enough : n < fuel) : digitCodes fuel n ≠ [] := by
  fun_induction digitCodes fuel n with
  | case1 n => omega
  | case2 fuel n small => simp
  | case3 fuel n large ih => simp

/-- The first digit is that of a number below 10, which is 0 for 0 alone. -/
theorem head?_digitCodes_ne_zero {fuel n : Nat} (enough : n < fuel) (h0 : n ≠ 0) :
    (digitCodes fuel n).head? ≠ some 48 := by
  fun_induction digitCodes fuel n with
  | case1 n => omega
  | case2 fuel n small => simpa using h0
  | case3 fuel n large ih =>
    have shorter : n / 10 < fuel := by omega
    rw [List.head?_append_of_ne_nil _ (digitCodes_ne_nil shorter)]
    exact ih shorter (by omega)

theorem decimal_of_neg {w : Int} (h : w < 0) : decimal w = 45 :: decimal (-w) := by
  simp [decimal, h, h.le]

theorem decimal_natCast (n : Nat) : decimal n = digitCodes (n + 1) n := by
  simp [decimal]

/-! ### PRINT and EMIT -/

/-- The code range that EMIT checks in a present value (R190, R410). -/
theorem charCode_of_outside {s : State} {x : Int} (h : x < 0 ∨ x > s.params.charCodeMax) :
    s.charCode (some x) = .error .badCharCode := by
  simp only [State.charCode, need_some, ok_bind]
  exact if_neg (by omega)

/-- The state in which the signal that writes to OUT finds what `i` popped: in its second row, after TOS_FROM_BR. -/
def State.topOffered (s : State) (i : Instr) : State := { s.topTaken i with tos := s.popped }

theorem topOffered_of_concat {s : State} {S : List Int} {x : Int} (hs : s.stack = S ++ [x]) (i : Instr) :
    s.topOffered i =
      { s.enter i with
        br := some x, tos := some x, stack := S, mpc := firstRow i.opcode + 1, tickCount := s.tickCount + 1 } := by
  simp [State.topOffered, State.topTaken, popped_concat hs, State.pop, hs]

section
variable {s : State} {i : Instr} {g : Signal} (hr : s.status = .running)
  (first : table[firstRow i.opcode]? = some [.brFromPop, .mpcNext])
  (second : table[firstRow i.opcode + 1]? = some [.tosFromBr, g, .pcInc, .mpcZero])
include hr first second

/-- An instruction that pops a value and offers it to `g` comes to what the row leaves from `g` on. -/
theorem exec_of_topOffered {t : State} (hrun : runSignals [g, .pcInc, .mpcZero] (s.topOffered i) = t)
    (ht : t.mpc = 0 ∨ t.status ≠ .running) : exec i s = .next t := by
  have row : runSignals [.tosFromBr, g, .pcInc, .mpcZero] (s.topTaken i) = t :=
    (runSignals_cons_running (t := s.topOffered i) rfl hr).trans hrun
  rw [exec_eq_topTaken hr first, finish_last_row (s := s.topTaken i) (Nat.succ_ne_zero _) hr second row ht]

/-- It faults with the value popped and OUT as it is. -/
theorem exec_output_of_error {k : FaultKind} (he : signalEffect g (s.topOffered i) = .error k) :
    exec i s = .next ((s.topOffered i).raise k) :=
  exec_of_topOffered hr first second (runSignals_cons_stopped (execSignal_of_error he) nofun) (.inr nofun)

/-- It completes with the codes appended that `g` writes. -/
theorem exec_output_of_ok {codes : List Nat}
    (ho : signalEffect g (s.topOffered i) = .ok ((s.topOffered i).emitCodes codes)) :
    exec i s = .next
      { s.topOffered i with
        output := s.output ++ codes, pc := s.pc + 1, mpc := 0, tickCount := s.tickCount + 2 } := by
  have row : runSignals [g, .pcInc, .mpcZero] (s.topOffered i) = _ :=
    (runSignals_cons_running (execSignal_of_ok ho) hr).trans (runSignals_pcInc_mpcZero hr)
  exact exec_of_topOffered hr first second row (.inl rfl)

/-- On an empty stack a signal that needs TOS faults, the pop having changed nothing (R188, R190). -/
theorem exec_output_of_empty (hs : s.stack = [])
    (absent : ∀ u : State, u.tos = none → signalEffect g u = .error .operandAbsent) :
    exec i s = .next
      { inRow s i.opcode i.arg i.sourceTag (firstRow i.opcode + 1) with
        br := none, tos := none, tickCount := s.tickCount + 1, status := .fault .operandAbsent } := by
  have nothing : s.popped = none := popped_empty hs
  rw [exec_output_of_error hr first second (absent (s.topOffered i) nothing), State.topOffered, State.topTaken, nothing,
    pop_empty (s := s.enter i) hs]
  rfl

end

/-! ### READ -/

/-- The state after row 67: `c` is in TOS, and `rest` is left of IN. -/
def State.codeTaken (s : State) (i : Instr) (c : Nat) (rest : List Nat) : State :=
  { s.enter i with tos := some (c : Int), input := rest, mpc := firstRow i.opcode + 1, tickCount := s.tickCount + 1 }

/-- IO_READ takes the front code of IN, and 0 from an empty IN, of which nothing is left (R189). -/
theorem signalEffect_ioRead (s : State) :
    signalEffect .ioRead s = .ok { s with tos := some (s.input.headD 0 : Nat), input := s.input.tail } := by
  cases hin : s.input with
  | nil => simp [signalEffect, hin]
  | cons c rest => simp [signalEffect, hin]

section
variable {arg : OptWord} {tag : Option SourceTag} {s : State} {c : Nat} {rest : List Nat}
  (hr : s.status = .running) (front : s.input.headD 0 = c) (left : s.input.tail = rest)
include hr front left

/-- READ comes to what row 68 leaves. -/
theorem exec_read_of_codeTaken {t : State}
    (hrun : runSignals [.dsPush, .pcInc, .mpcZero] (s.codeTaken (.read arg tag) c rest) = t)
    (ht : t.mpc = 0 ∨ t.status ≠ .running) : exec (.read arg tag) s = .next t := by
  subst front left
  have row67 : runSignals [.ioRead, .mpcNext] (s.enter (.read arg tag)) =
      s.codeTaken (.read arg tag) (s.input.headD 0) s.input.tail := by
    have taken := execSignal_of_ok (signalEffect_ioRead (s.enter (.read arg tag)))
    rw [runSignals_cons_running taken hr]
    exact runSignals_cons_running rfl hr
  rw [exec_eq_firstRow (.read arg tag) hr rfl, row67,
    finish_last_row (s := s.codeTaken _ _ _) (Nat.succ_ne_zero _) hr rfl hrun ht]

/-- Below the bound of the stack READ pushes the code it took (R372). -/
theorem exec_read_of_room (room : s.stack.length < stackDepth) :
    exec (.read arg tag) s = .next
      { inRow s .read arg tag 0 with
        tos := some (c : Int), input := rest, stack := s.stack ++ [(c : Int)], pc := s.pc + 1,
        tickCount := s.tickCount + 2 } := by
  have row68 := runSignals_pushRow (s := s.codeTaken (.read arg tag) c rest) (S := s.stack ++ [(c : Int)]) hr rfl
    (by simpa using room)
  exact exec_read_of_codeTaken hr front left row68 (.inl rfl)

/-- On a full stack it faults, and the code it took is lost (R372). -/
theorem exec_read_of_full (full : stackDepth ≤ s.stack.length) :
    exec (.read arg tag) s = .next ((s.codeTaken (.read arg tag) c rest).raise .stackOverflow) := by
  have row68 := runSignals_dsPush_of_full (s := s.codeTaken (.read arg tag) c rest)
    (rest := [.pcInc, .mpcZero]) rfl full
  exact exec_read_of_codeTaken hr front left row68 (.inr nofun)

end

end Sys2Proof.Machine
end

section
/-! PROOFS. The statements of spec/48_io.md. -/

open Sys2Proof.Machine

namespace Sys2Proof.Statements

/-- Settles O9: the digits are read back, and so is their first, by induction over the digits. -/
theorem decimalIsTheShortestNumeral : Obligations.DecimalIsTheShortestNumeral := by
  unfold Obligations.DecimalIsTheShortestNumeral
  refine ⟨by decide, fun w hw => decimal_of_neg hw, fun n => ?_⟩
  rw [decimal_natCast]
  have enough : n < n + 1 := n.lt_succ_self
  exact ⟨fun c hc => ⟨le_digitCodes _ n c hc, digitCodes_le _ n c hc⟩, digitsValue_digitCodes enough,
    head?_digitCodes_ne_zero enough⟩

/-- Settles O48: the value popped is present, and IO_PRINT writes its decimal form, or absent. -/
theorem printAppendsDecimal : Obligations.PrintAppendsDecimal := by
  unfold Obligations.PrintAppendsDecimal
  refine ⟨fun arg tag s hr => ⟨fun S x hs => ?_, fun hs => ?_⟩, by decide, by decide, by decide⟩
  · have effect : signalEffect .ioPrint (s.topOffered (.print arg tag)) =
        .ok ((s.topOffered (.print arg tag)).emitCodes (decimal x)) := by
      rw [topOffered_of_concat hs]
      rfl
    have done := exec_output_of_ok hr rfl rfl effect
    rw [topOffered_of_concat hs] at done
    exact done
  · exact exec_output_of_empty (i := .print arg tag) (g := .ioPrint) hr rfl rfl hs
      fun u hu => by simp [signalEffect, hu]

/-- Settles O49: a front code or the 0 of an empty IN is taken first, and then pushed or lost. -/
theorem readPushesFrontCode : Obligations.ReadPushesFrontCode := by
  unfold Obligations.ReadPushesFrontCode
  intro arg tag s ⟨hr, _⟩
  refine ⟨fun c rest hin => ?_, fun hin => ?_⟩
  · have front : s.input.headD 0 = c := by rw [hin, List.headD_cons]
    have left : s.input.tail = rest := by rw [hin, List.tail_cons]
    exact ⟨exec_read_of_room hr front left, fun full => exec_read_of_full hr front left full.ge⟩
  · have front : s.input.headD 0 = 0 := by rw [hin, List.headD_nil]
    have left : s.input.tail = s.input := by rw [hin, List.tail_nil]
    exact ⟨exec_read_of_room hr front left, fun full => exec_read_of_full hr front left full.ge⟩

/-- Settles O50: the value popped is present and in the range of codes, present and outside it, or absent. -/
theorem emitAppendsCode : Obligations.EmitAppendsCode := by
  unfold Obligations.EmitAppendsCode
  intro arg tag s hr
  refine ⟨fun S x hs => ?_, fun hs => ?_⟩
  · have offered := topOffered_of_concat hs (.emit arg tag)
    refine ⟨fun inside => ?_, fun outside => ?_⟩
    · have code : (s.topOffered (.emit arg tag)).charCode (some x) = .ok x.toNat :=
        charCode_eq_ok.mpr ⟨congrArg some (Int.toNat_of_nonneg inside.1).symm, Int.toNat_le.mpr inside.2⟩
      have effect : signalEffect .ioEmit (s.topOffered (.emit arg tag)) =
          .ok ((s.topOffered (.emit arg tag)).emitCodes [x.toNat]) :=
        bind_eq_ok.mpr ⟨x.toNat, by rw [← code, offered], rfl⟩
      have done := exec_output_of_ok hr rfl rfl effect
      rw [offered] at done
      exact done
    · have effect : signalEffect .ioEmit (s.topOffered (.emit arg tag)) = .error .badCharCode := by
        rw [offered]
        exact bind_eq_error.mpr (.inl (charCode_of_outside outside))
      have fault := exec_output_of_error hr rfl rfl effect
      rw [offered] at fault
      exact fault
  · exact exec_output_of_empty (i := .emit arg tag) (g := .ioEmit) hr rfl rfl hs
      fun u hu => by simp [signalEffect, State.charCode, hu]

end Sys2Proof.Statements
end
